-- ==== Sys2Proof/Word.lean ====
section
/-!
DEFINITION. The two word types of the block (spec/00_scope.md R7): a byte and a u16, both unsigned.
-/

namespace Sys2Proof

/-- A byte, 0..255 (R7). -/
abbrev Byte := BitVec 8

/-- A u16, 0..65535 (R7). -/
abbrev Word := BitVec 16

end Sys2Proof
end

