-- ==== Sys2Proof/Syntax.lean ====
section
/-!
DEFINITION. The block's instructions: one constructor for each row of spec/opcode_table.json (R2, R68), and the
commands a host presents on the command port (R28).
-/

namespace Sys2Proof

/-- A command on the host command port (spec/10_state.md R28). `cmd_op` is an enumeration (R73); TRANSFER comes with
`cmd_kind`, `cmd_obj`, the five-bit `cmd_dlen` and the sixteen bytes of `cmd_data`. -/
inductive HostCommand where
  | openLink
  | closeLink
  | transfer (kind obj : Byte) (dlen : BitVec 5) (data : Vector Byte 16)
  deriving DecidableEq, Repr

/-- The operations of the block (spec/00_scope.md R2; spec/opcode_table.json). -/
inductive Instr where
  /-- QUERY obj, data (R101): a TRANSFER of kind `0x40`; there is no node operand (log entry 17). -/
  | query (obj : Byte) (data : List Byte)
  /-- SEND obj, data (R102): a TRANSFER of kind `0xC0`. -/
  | send (obj : Byte) (data : List Byte)
  /-- The acknowledge `first second FF 00 tail` as a response (R65, R112). -/
  | rspStatusAck (first second : Byte) (tail : List Byte)
  /-- The device error `first second FF code tail` as a response, `code` not zero (R65, R112). -/
  | rspStatusError (first second code : Byte) (tail : List Byte)
  /-- Any other response (R64, R68, R114). -/
  | rspData (bytes : List Byte)
  /-- OPEN (R132). -/
  | openLink
  /-- CLOSE (R133). -/
  | closeLink
  /-- TRANSFER with any kind byte and any length the port can carry (R135). -/
  | transfer (kind obj : Byte) (dlen : BitVec 5) (data : Vector Byte 16)
  /-- ENCODE of the request descriptor (R100). -/
  | encode
  /-- VERIFY_CHECKSUM of the response (R110). -/
  | verifyChecksum
  /-- IS_ERROR of the response (R112). -/
  | isError
  /-- RSP_FIELDS, the view of the response (R114). -/
  | rspFields
  /-- CS_CLEAR (R90). -/
  | csClear
  /-- CS_ADD b (R91). -/
  | csAdd (b : Byte)
  /-- SUM16 of a byte sequence (R92). -/
  | sum16 (bytes : List Byte)
  /-- CS_SPLIT (R93). -/
  | csSplit
  deriving DecidableEq, Repr

end Sys2Proof
end

