-- ==== Sys2Proof/Machine/Moment.lean ====
section
/-!
DEFINITION. The input signals of one moment (spec/10_state.md R28, R30, R31, R32; spec/70_reset_and_hazards.md R220): the
parameter of the step relation (R8, R22).
-/

namespace Sys2Proof.Machine

/-- The input signals of one moment (log entry 1). -/
structure Moment where
  /-- The reset input (R220). -/
  reset : Bool
  /-- `cmd_valid` with the command presented (R28). -/
  command : Option HostCommand
  /-- `tx_ready` (R30). -/
  txReady : Bool
  /-- `tx_fail` (R30). -/
  txFail : Bool
  /-- `rx_valid` with `rx_data` (R31). -/
  received : Option Byte
  /-- `tick` (R32). -/
  tick : Bool
  deriving DecidableEq, Repr, Inhabited

/-- A moment at which no signal is given. -/
def Moment.quiet : Moment :=
  { reset := false, command := none, txReady := false, txFail := false, received := none, tick := false }

end Sys2Proof.Machine
end

