-- ==== Sys2Proof/Config.lean ====
section
/-!
DEFINITION. The constants of spec/00_scope.md R5 and R6, each under its own name (U21), and the block's two open
parameters, the tick and the read timeout; and the environment's free answers.
-/

namespace Sys2Proof.Config

/-- `SD_BASE` (R5): added to the kind to form the start delimiter. -/
def sdBase : Byte := 0x30

/-- `KIND_QUERY` (R5). -/
def kindQuery : Byte := 0x40

/-- `KIND_SEND` (R5). -/
def kindSend : Byte := 0xC0

/-- `STATUS_MARK` (R5): byte 2 of a status response. -/
def statusMark : Byte := 0xFF

/-- `CODE_ACK` (R5): the status code of an acknowledge. -/
def codeAck : Byte := 0x00

/-- `NODE_FIXED` (R5): the node of every transfer. -/
def nodeFixed : Byte := 0

/-- `MAX_TX_DATA` (R6): the size of `REQ`. -/
def maxTxData : Nat := 16

/-- `TX_BUF_SIZE` (R6). -/
def txBufSize : Nat := 21

/-- `RX_BUF_SIZE` (R5). -/
def rxBufSize : Nat := 100

/-- `BAUD` (R5): the line rate, which no rule reads. -/
def baud : Nat := 115200

/-- The kinds of parity a line can have. -/
inductive Parity where
  | none
  | even
  | odd
  deriving DecidableEq, Repr

/-- `PARITY` (R5), which no rule reads. -/
def parity : Parity := .odd

/-- `FLOW_CONTROL` (R5): none. No rule reads it. -/
def flowControl : Bool := false

/-- `DATA_BITS` (R5), which no rule reads. -/
def dataBits : Nat := 8

/-- `STOP_BITS` (R6), which no rule reads. -/
def stopBits : Nat := 1

/-- `T_GAP` in milliseconds (R5, U14). -/
def gapMs : Nat := 50

/-- `TICK` (R6, R32) is `(tickUnits + 1) / (tickParts + 1)` milliseconds: any positive fraction. Free. DESIGN CHOICE, safe: log
entry 3. -/
opaque tickUnits : Nat

/-- See `tickUnits`. Free. DESIGN CHOICE, safe: log entry 3. -/
opaque tickParts : Nat

/-- `T_GAP` in ticks (R32): `50 ms / TICK`, the fraction rounded up. A whole number of ticks has reached `50 ms / TICK` exactly
when it has reached this. DEDUCED, safe: log entry 3. -/
def gapTicks : Nat := (gapMs * (tickParts + 1) + tickUnits) / (tickUnits + 1)

/-- By how many ticks `T_TIMEOUT` exceeds the least count of ticks that lasts longer than `T_GAP`; free. DESIGN CHOICE, safe: log
entry 3. -/
opaque timeoutSlack : Nat

/-- `T_TIMEOUT` in ticks (R5, R6, R32, R201): any count that lasts longer than `T_GAP`, so `T_TIMEOUT > T_GAP` in time and nothing
more. Where `TICK` does not divide 50 ms the spec does not say how `T_TIMEOUT > T_GAP` reads in ticks; the model compares with
`50 ms / TICK` itself, not with the rounded `gapTicks`. DESIGN CHOICE, safe: log entry 3. -/
def timeoutTicks : Nat := gapMs * (tickParts + 1) / (tickUnits + 1) + 1 + timeoutSlack

/-! ### The environment -/

/-- The environment's answer at the `n`-th moment (R8, R21, R22): which signals it gives, where none are placed. Free: nothing
can be proved of it. DESIGN CHOICE, safe: log entry 1. -/
opaque freeMoment (n : Nat) : Machine.Moment

/-! ### Host software's open points (spec/93_implementation_defined.md U19); the block reads none of them -/

/-- Does a tie round up (R179)? Free. DESIGN CHOICE, safe: log entry 15. -/
opaque tieUp : Rat → Bool

/-- The integer written for a setpoint off the scale 0 to 25600 (R180: whether it is clamped is not stated). Free. DESIGN
CHOICE, safe: log entry 15. -/
opaque offScaleRaw : Int → Word

end Sys2Proof.Config
end

