-- ==== Sys2Proof/Machine/Telegram.lean ====
section
/-!
DEFINITION. The pure functions of units U1 and U2 (spec/10_state.md R33): the bit-field and byte-order helpers of R7,
SUM16 (R92), `encode` (R100), `verify_checksum` (R110), `is_status`, `status_code` and `classify` (R112).
-/

namespace Sys2Proof.Machine

/-! ### Bytes and words (spec/00_scope.md R7) -/

/-- `zext_16(b)`. -/
def zext16 (b : Byte) : Word := b.setWidth 16

/-- `hi8(v) = v[15:8]`. -/
def hi8 (v : Word) : Byte := v.extractLsb' 8 8

/-- `lo8(v) = v[7:0]`. -/
def lo8 (v : Word) : Byte := v.extractLsb' 0 8

/-- `be16(h, l) = h * 256 + l`. -/
def be16 (h l : Byte) : Word := h ++ l

/-! ### Unit U1: the checksum -/

/-- One CS_ADD on the value of the accumulator (R91): 16-bit unsigned, the carry out of bit 15 dropped. -/
def addByte (acc : Word) (b : Byte) : Word := acc + zext16 b

/-- `SUM16(s)` (R92): from zero, one byte after the other. -/
def sum16 (bytes : List Byte) : Word := bytes.foldl addByte 0

/-! ### Unit U2: the encoder -/

/-- Is `kind` one of the two request kinds (R68)? Compared whole, not by bits 7:6. -/
def legalKind (kind : Byte) : Bool := kind == Config.kindQuery || kind == Config.kindSend

/-- What the length adds to the start delimiter (R62, R67): nothing for no data, else `n - 1`. -/
def lengthAdjust (n : Nat) : Byte := if n = 0 then 0 else BitVec.ofNat 8 (n - 1)

/-- The start delimiter of a request with `n` data bytes (R61, R100): `0x30 + kind + adj`. -/
def startDelimiter (kind : Byte) (n : Nat) : Byte := Config.sdBase + kind + lengthAdjust n

/-- The summed part of a request (R100): `[sd, node, obj] ++ data`. -/
def requestBody (kind node obj : Byte) (data : List Byte) : List Byte :=
  startDelimiter kind data.length :: node :: obj :: data

/-- A summed part with its checksum bytes behind it, high byte first (R41, R66). -/
def withChecksum (body : List Byte) : List Byte := body ++ [hi8 (sum16 body), lo8 (sum16 body)]

/-- `encode(kind, node, obj, data)` (R100). It has its meaning for a legal kind and at most 16 data bytes; the
operation ENCODE checks that. -/
def encodeTelegram (kind node obj : Byte) (data : List Byte) : List Byte :=
  withChecksum (requestBody kind node obj data)

/-! ### Unit U2: the decoder -/

/-- The bytes of a response that are summed (R66, R110): all but the last two. -/
def summedPart (r : List Byte) : List Byte := r.take (r.length - 2)

/-- `rsp_cs(r)` (R114): the checksum a response carries, defined from two bytes on. -/
def carriedChecksum (r : List Byte) : Option Word :=
  match r.drop (r.length - 2) with
  | [h, l] => some (be16 h l)
  | _ => none

/-- `verify_checksum(r)` (R110): false for fewer than two bytes. -/
def checksumGood (r : List Byte) : Bool :=
  if r.length < 2 then false else carriedChecksum r == some (sum16 (summedPart r))

/-- `is_status(r)` (R112): at least four bytes, and byte 2 is the marker. -/
def isStatus (r : List Byte) : Bool :=
  match r with
  | _ :: _ :: marker :: _ :: _ => marker == Config.statusMark
  | _ => false

/-- `status_code(r)` (R112): byte 3, defined only for a status response (U7). -/
def statusCode (r : List Byte) : Option Byte := if isStatus r then r[3]? else none

/-- The three classes of a response (R112, C2). -/
inductive ResponseClass where
  | notStatus
  | ack
  | deviceError (code : Byte)
  deriving DecidableEq, Repr

/-- `classify(r)` (R112). -/
def classify (r : List Byte) : ResponseClass :=
  match statusCode r with
  | none => .notStatus
  | some c => if c = Config.codeAck then .ack else .deviceError c

end Sys2Proof.Machine
end

