-- ==== Sys2Proof/WellFormed.lean ====
section
/-!
DEFINITION. Which instructions are well formed: a request has at most 16 data bytes (spec/00_scope.md R6, R69), a
response has 1 to 100 bytes (R13, R68), the code of a device error is not zero (R112) and a data response is no status
response (R68). The other constructors carry nothing that needs a check.
-/

namespace Sys2Proof

/-- The check on one instruction. -/
def Instr.wellFormed : Instr → Bool
  | .query _ data => decide (data.length ≤ Config.maxTxData)
  | .send _ data => decide (data.length ≤ Config.maxTxData)
  | .rspStatusAck _ _ tail => decide (tail.length + 4 ≤ Config.rxBufSize)
  | .rspStatusError _ _ code tail => decide (code ≠ Config.codeAck) && decide (tail.length + 4 ≤ Config.rxBufSize)
  | .rspData bytes =>
    decide (1 ≤ bytes.length) && decide (bytes.length ≤ Config.rxBufSize) && !Machine.isStatus bytes
  | .openLink => true
  | .closeLink => true
  | .transfer _ _ _ _ => true
  | .encode => true
  | .verifyChecksum => true
  | .isError => true
  | .rspFields => true
  | .csClear => true
  | .csAdd _ => true
  | .sum16 _ => true
  | .csSplit => true

end Sys2Proof
end

