-- ==== Sys2Proof/Decode.lean ====
section
/-!
DEFINITION. From bytes, and from the command port, to instructions. A telegram that travels to the device decodes to
QUERY or SEND (spec/30_encoding.md R61, R62, R68); a telegram that comes from the device decodes to one of the three
response classes (R64, R65, R68); a command on the host port decodes by its name and its kind (R28, R68). Behind them the
encoder, and what the host's numbering of spec/opcode_table.json needs.
-/

namespace Sys2Proof

/-- Why bytes are no instruction. -/
inductive DecodeError where
  /-- A request shorter than its five fixed bytes (R60). -/
  | requestTooShort
  /-- A start delimiter that ENCODE never produces: bits 7:4 are neither 0b0111 nor 0b1111 (R62, R69). -/
  | notARequestDelimiter
  /-- A node other than the one every transfer uses (R5, R136). -/
  | nodeNotFixed
  /-- The LEN field does not agree with the length of the telegram (R62, R63). -/
  | lengthFieldWrong
  /-- A response of no bytes: there is none (R68, R145). -/
  | emptyResponse
  deriving DecidableEq, Repr

/-- SD bits 7:4 (R62): KIND and the constant. -/
def delimiterHigh (sd : Byte) : BitVec 4 := sd.extractLsb' 4 4

/-- SD bits 3:0, LEN (R62). -/
def delimiterLen (sd : Byte) : BitVec 4 := sd.extractLsb' 0 4

/-- The value LEN has for `n` data bytes (R62); the same for none and for one (R63). -/
def lenField (n : Nat) : Nat := if n = 0 then 0 else n - 1

/-- Decode a whole request telegram (R61, R62, R103 (c)). The checksum is not looked at here (log entry 11). -/
def decodeRequest (t : List Byte) : Except DecodeError Instr :=
  match t with
  | sd :: node :: obj :: rest =>
    if rest.length < 2 then .error .requestTooShort
    else
      let data := rest.take (rest.length - 2)
      if node ≠ Config.nodeFixed then .error .nodeNotFixed
      else if (delimiterLen sd).toNat ≠ lenField data.length then .error .lengthFieldWrong
      else if delimiterHigh sd = 0b0111#4 then .ok (.query obj data)
      else if delimiterHigh sd = 0b1111#4 then .ok (.send obj data)
      else .error .notARequestDelimiter
  | _ => .error .requestTooShort

/-- Decode a response (R64, R65, R68): by bytes 2 and 3 only. -/
def decodeResponse (r : List Byte) : Except DecodeError Instr :=
  match r with
  | [] => .error .emptyResponse
  | first :: second :: marker :: code :: tail =>
    if marker = Config.statusMark then
      if code = Config.codeAck then .ok (.rspStatusAck first second tail)
      else .ok (.rspStatusError first second code tail)
    else .ok (.rspData (first :: second :: marker :: code :: tail))
  | short => .ok (.rspData short)

/-- Which way a telegram travels (R60: a request and a response differ in who builds them). -/
inductive Direction where
  | toDevice
  | fromDevice
  deriving DecidableEq, Repr

/-- Decode the bytes of a telegram. -/
def decode (d : Direction) (t : List Byte) : Except DecodeError Instr :=
  match d with
  | .toDevice => decodeRequest t
  | .fromDevice => decodeResponse t

/-- The instruction a presented command is (R28, R68): the kind byte makes a TRANSFER a QUERY or a SEND; one that the
block will refuse (R69) stays a TRANSFER. -/
def decodeCommand : HostCommand → Instr
  | .openLink => .openLink
  | .closeLink => .closeLink
  | .transfer kind obj dlen data =>
    if dlen.toNat ≤ Config.maxTxData ∧ kind = Config.kindQuery then .query obj (data.toList.take dlen.toNat)
    else if dlen.toNat ≤ Config.maxTxData ∧ kind = Config.kindSend then .send obj (data.toList.take dlen.toNat)
    else .transfer kind obj dlen data

/-! ### The encoder -/

/-- The way an instruction's telegram travels; the operations without a telegram are counted with the requests, and
nothing depends on that. -/
def direction : Instr → Direction
  | .query _ _ => .toDevice
  | .send _ _ => .toDevice
  | .rspStatusAck _ _ _ => .fromDevice
  | .rspStatusError _ _ _ _ => .fromDevice
  | .rspData _ => .fromDevice
  | .openLink => .toDevice
  | .closeLink => .toDevice
  | .transfer _ _ _ _ => .toDevice
  | .encode => .toDevice
  | .verifyChecksum => .toDevice
  | .isError => .toDevice
  | .rspFields => .toDevice
  | .csClear => .toDevice
  | .csAdd _ => .toDevice
  | .sum16 _ => .toDevice
  | .csSplit => .toDevice

/-- The bytes of an instruction (R61, R64, R65); none for the rows whose encoding is "none". -/
def encode : Instr → Option (List Byte)
  | .query obj data => some (Machine.encodeTelegram Config.kindQuery Config.nodeFixed obj data)
  | .send obj data => some (Machine.encodeTelegram Config.kindSend Config.nodeFixed obj data)
  | .rspStatusAck first second tail => some (first :: second :: Config.statusMark :: Config.codeAck :: tail)
  | .rspStatusError first second code tail => some (first :: second :: Config.statusMark :: code :: tail)
  | .rspData bytes => some bytes
  | .openLink => none
  | .closeLink => none
  | .transfer _ _ _ _ => none
  | .encode => none
  | .verifyChecksum => none
  | .isError => none
  | .rspFields => none
  | .csClear => none
  | .csAdd _ => none
  | .sum16 _ => none
  | .csSplit => none

/-- Sixteen data lines that carry `data` first and zeros behind (R28). -/
def dataLines (data : List Byte) : Vector Byte 16 :=
  ⟨⟨(data ++ List.replicate 16 0).take 16⟩, by simp⟩

/-- The command by which a host presents an instruction (R28, R72); none for what no host presents. -/
def hostCommand : Instr → Option HostCommand
  | .query obj data => some (.transfer Config.kindQuery obj (BitVec.ofNat 5 data.length) (dataLines data))
  | .send obj data => some (.transfer Config.kindSend obj (BitVec.ofNat 5 data.length) (dataLines data))
  | .openLink => some .openLink
  | .closeLink => some .closeLink
  | .transfer kind obj dlen data => some (.transfer kind obj dlen data)
  | .rspStatusAck _ _ _ => none
  | .rspStatusError _ _ _ _ => none
  | .rspData _ => none
  | .encode => none
  | .verifyChecksum => none
  | .isError => none
  | .rspFields => none
  | .csClear => none
  | .csAdd _ => none
  | .sum16 _ => none
  | .csSplit => none

/-! ### The numbering of spec/opcode_table.json -/

/-- The bytes of a table word, zeros above it (log entry 12). A row of 8 bits is byte 0 of a request (R62), as long as
its LEN field says, a LEN of zero standing for no data. A row of 16 bits is bytes 2 and 3 of a response, byte 2 in bits
15:8 as the table's pattern shows it, in the six bytes of the shortest status response (R65). -/
def tableBytes (nbits w : Nat) : Option (Direction × List Byte) :=
  if nbits = 8 then
    let sd : Byte := BitVec.ofNat 8 w
    let l := (delimiterLen sd).toNat
    some (.toDevice, sd :: List.replicate (4 + if l = 0 then 0 else l + 1) 0)
  else if nbits = 16 then
    some (.fromDevice, [0, 0, BitVec.ofNat 8 (w / 256), BitVec.ofNat 8 w, 0, 0])
  else none

/-- The instruction the decoder reads from a table word. -/
def decodeTableWord (nbits w : Nat) : Option Instr :=
  match tableBytes nbits w with
  | some (d, t) => (decode d t).toOption
  | none => none

end Sys2Proof
end

