-- ==== Sys2Proof/Machine/State.lean ====
section
/-!
DEFINITION. The state of the block (spec/10_state.md), the reasons a step can stop, and the state after reset (R36).
-/

namespace Sys2Proof.Machine

/-- The three buffers (R20). -/
inductive Space where
  | req
  | tx
  | rx
  deriving DecidableEq, Repr

/-- The contents of a buffer: its bytes that hold a value, addresses strictly rising. An address that is not listed holds
no value (R11, R12, R13; log entry 7). -/
abbrev Memory := List Host.Cell

/-- The canonical form: addresses strictly rising. -/
abbrev Memory.wf (m : Memory) : Prop := (m.map Prod.fst).Pairwise (· < ·)

/-- The framer's phase (R14). -/
inductive Phase where
  | idle
  | gap
  | tx
  | rx
  | check
  deriving DecidableEq, Repr

/-- The link register (R17). -/
inductive Link where
  | unopened
  | opened
  | closed
  deriving DecidableEq, Repr

/-- Why the machine stops. No run of the block from reset meets one; each is safe: the model stops where the spec says
there is no value. -/
inductive Fault where
  /-- A byte of a buffer that holds no value was read (R11, R12, R13, U5). Raised by `readByte`. Safe. -/
  | noValue (space : Space) (addr : Nat)
  /-- An address outside the buffer was read (R20, R46). Raised by `readByte`. Safe. -/
  | outsideBuffer (space : Space) (addr : Nat)
  /-- The host read a result register while `done = 0` (R49, U6). Raised by the result port's reads only. Safe. -/
  | resultNotReady
  /-- `tx_data` was read while `tx_valid = 0` (R30, which gives it no value then; log entry 18). Raised by `txData` only.
  Safe. -/
  | txDataNotValid
  deriving DecidableEq, Repr

/-- Why an instruction has no meaning. -/
inductive Refusal where
  /-- Raised by an arm of `exec` whose instruction has no meaning yet; none is left. Safe. -/
  | notModelled (mnemonic : String)
  /-- ENCODE on a request descriptor for which `encode` is given no meaning: a kind that is neither `0x40` nor `0xC0`, or
  more than 16 data bytes (R100, D4, D5). Raised by ENCODE. Safe. -/
  | encodeHasNoMeaning
  deriving DecidableEq, Repr

/-- What RSP_FIELDS shows of a response (R114); `none` where a part is undefined (U7). -/
structure FieldsView where
  first : Option Byte
  second : Option Byte
  obj : Option Byte
  data : Option (List Byte)
  checksum : Option Word
  deriving DecidableEq, Repr

/-- The state of the block. Registers first, in the order of the summary table of spec/10_state.md; then what the block drives:
the wire and the outputs that are no registers (log entries 5, 6). No constant, no input signal and nothing of the host's
software is a field of it (R22). Lengths, indexes and timers are natural numbers (log entry 16). -/
structure Block where
  /-- `cs_acc` (R10). -/
  csAcc : Word
  /-- `req_kind` (R11). -/
  reqKind : Byte
  /-- `req_node` (R11). -/
  reqNode : Byte
  /-- `req_obj` (R11). -/
  reqObj : Byte
  /-- `req_dlen` (R11). -/
  reqDlen : Nat
  /-- `REQ[0..15]` (R11). -/
  req : Memory
  /-- `TX[0..20]` (R12). -/
  tx : Memory
  /-- `tx_len` (R12). -/
  txLen : Nat
  /-- `tx_idx` (R14). -/
  txIdx : Nat
  /-- `RX[0..99]` (R13). -/
  rx : Memory
  /-- `rx_len` (R13). -/
  rxLen : Nat
  /-- `phase` (R14). -/
  phase : Phase
  /-- `link` (R17). -/
  link : Link
  /-- `done` (R15). -/
  done : Bool
  /-- `f_not_connected` (R15). -/
  fNotConnected : Bool
  /-- `f_refused` (R15). -/
  fRefused : Bool
  /-- `f_io_error` (R15). -/
  fIoError : Bool
  /-- `f_cs_mismatch` (R15). -/
  fCsMismatch : Bool
  /-- `f_is_status` (R15). -/
  fIsStatus : Bool
  /-- `f_ack` (R15). -/
  fAck : Bool
  /-- `f_dev_error` (R15). -/
  fDevError : Bool
  /-- `code` (R15). -/
  code : Byte
  /-- `rx_timer` (R19). -/
  rxTimer : Nat
  /-- `gap_timer` (R19). -/
  gapTimer : Nat
  /-- `gap_armed` (R19). -/
  gapArmed : Bool
  /-- The bytes handed to the transmitter so far, oldest first (R20, R30, R40). -/
  wireOut : List Byte
  /-- The outputs `cs_hi`, `cs_lo` of U1 as CS_SPLIT last drove them (R93). -/
  csOut : Option (Byte × Byte)
  /-- The answer of the last SUM16 carried out as an operation (R92). -/
  sumOut : Option Word
  /-- The view the last RSP_FIELDS gave (R114). -/
  fieldsOut : Option FieldsView
  deriving DecidableEq, Repr

/-- The state of the block, and behind it where the host's form of a step, which takes a state and no parameter, finds the
signals that the step relation takes as its parameter (log entry 1). -/
structure State extends Block where
  /-- Input signals already placed before the block, soonest first; beyond them the environment chooses freely. -/
  moments : List Moment
  /-- How many moments have passed: which of the environment's free choices comes next. -/
  momentCount : Nat
  deriving DecidableEq, Repr

/-- The state after reset (R36, R220). -/
def State.reset : State :=
  { csAcc := 0, reqKind := 0, reqNode := 0, reqObj := 0, reqDlen := 0, req := [], tx := [], txLen := 0, txIdx := 0,
    rx := [], rxLen := 0, phase := .idle, link := .unopened, done := false, fNotConnected := false, fRefused := false,
    fIoError := false, fCsMismatch := false, fIsStatus := false, fAck := false, fDevError := false, code := 0,
    rxTimer := 0, gapTimer := 0, gapArmed := false, wireOut := [], csOut := none, sumOut := none, fieldsOut := none,
    moments := [], momentCount := 0 }

end Sys2Proof.Machine
end

