-- ==== Sys2Proof/Machine/Flags.lean ====
section
/-!
DEFINITION. The outcome flags (spec/10_state.md R15) and the outcome read from them (R16).
-/

namespace Sys2Proof.Machine

/-- All outcome flags and `code` cleared, `done` with them (R134). -/
def clearFlags (s : State) : State :=
  { s with
    done := false, fNotConnected := false, fRefused := false, fIoError := false, fCsMismatch := false,
    fIsStatus := false, fAck := false, fDevError := false, code := 0 }

/-- The class flags and `code` of a class of response (R112). -/
def setClass (c : ResponseClass) (s : State) : State :=
  match c with
  | .notStatus => { s with fIsStatus := false, fAck := false, fDevError := false, code := 0 }
  | .ack => { s with fIsStatus := true, fAck := true, fDevError := false, code := Config.codeAck }
  | .deviceError code => { s with fIsStatus := true, fAck := false, fDevError := true, code := code }

/-- The outcomes of a command (spec/00_scope.md R9). -/
inductive CommandOutcome where
  | ok
  | notConnected
  | refused
  | ioError
  | checksumMismatch
  | deviceError (code : Byte)
  deriving DecidableEq, Repr

/-- The outcome as a function of the flags (R16), in the priority order of R195; defined only when `done = 1`. -/
def outcome (s : State) : Option CommandOutcome :=
  if !s.done then none
  else if s.fNotConnected then some .notConnected
  else if s.fRefused then some .refused
  else if s.fIoError then some .ioError
  else if s.fCsMismatch then some .checksumMismatch
  else if s.fDevError then some (.deviceError s.code)
  else some .ok

end Sys2Proof.Machine
end

