-- ==== Sys2Proof/Machine/Ops.lean ====
section
/-!
DEFINITION. The named operations: one byte of a buffer and runs of bytes (spec/00_scope.md R7, spec/20_memory.md R45),
acceptance and completion of a command (R134), raising an error kind (R196), and unit U1's operations on the accumulator
(spec/40_checksum.md).
-/

namespace Sys2Proof.Machine

/-! ### Memory cells -/

/-- The byte at an address, if it holds a value. -/
def Memory.read : Memory → Nat → Option Byte
  | [], _ => none
  | (k, v) :: m, a => if a = k then some v else Memory.read m a

/-- Put a byte at an address, in its place in the rising order. -/
def Memory.write : Memory → Nat → Byte → Memory
  | [], a, b => [(a, b)]
  | (k, v) :: m, a, b =>
    if a < k then (a, b) :: (k, v) :: m
    else if a = k then (a, b) :: m
    else (k, v) :: Memory.write m a b

/-- The cells that hold `bytes` from an address on. -/
def cellsFrom : Nat → List Byte → Memory
  | _, [] => []
  | a, b :: bs => (a, b) :: cellsFrom (a + 1) bs

/-! ### Buffers -/

/-- The size of a buffer (R20). -/
def Space.size : Space → Nat
  | .req => Config.maxTxData
  | .tx => Config.txBufSize
  | .rx => Config.rxBufSize

/-- The contents of a buffer. -/
def State.buffer (s : State) : Space → Memory
  | .req => s.req
  | .tx => s.tx
  | .rx => s.rx

/-- The state with other contents in a buffer. -/
def State.withBuffer (s : State) (sp : Space) (m : Memory) : State :=
  match sp with
  | .req => { s with req := m }
  | .tx => { s with tx := m }
  | .rx => { s with rx := m }

/-- `MemRead(space, addr, 1)` (R7, R45): a fault outside the buffer or where there is no value (R46, U5). -/
def readByte (sp : Space) (a : Nat) (s : State) : Except Fault Byte :=
  if a < sp.size then
    match (s.buffer sp).read a with
    | some b => .ok b
    | none => .error (.noValue sp a)
  else .error (.outsideBuffer sp a)

/-- `MemWrite(space, addr, 1, v)` (R7, R45). The places that write are guarded so that the address lies in the buffer
(R46). -/
def writeByte (sp : Space) (a : Nat) (b : Byte) (s : State) : State := s.withBuffer sp ((s.buffer sp).write a b)

/-- `n` one-byte reads in ascending order (R45). -/
def readBytes (sp : Space) : Nat → Nat → State → Except Fault (List Byte)
  | _, 0, _ => .ok []
  | a, n + 1, s =>
    match readByte sp a s with
    | .error f => .error f
    | .ok b =>
      match readBytes sp (a + 1) n s with
      | .error f => .error f
      | .ok bs => .ok (b :: bs)

/-- One-byte writes in ascending order (R45). -/
def writeBytes (sp : Space) : Nat → List Byte → State → State
  | _, [], s => s
  | a, b :: bs, s => writeBytes sp (a + 1) bs (writeByte sp a b s)

/-- No byte of the buffer holds a value. -/
def clearBuffer (sp : Space) (s : State) : State := s.withBuffer sp []

/-! ### Commands -/

/-- Acceptance (R134): flags and `code` cleared, the previous response discarded. It is also what the spec has for a return
from an error: the record of the last command goes when the next is accepted (R197). -/
def acceptCommand (s : State) : State := clearBuffer .rx { clearFlags s with rxLen := 0 }

/-- Completion (R134): the last step of every command. -/
def completeCommand (s : State) : State := { s with done := true, phase := .idle }

/-- The error kinds the block raises (R191). -/
inductive ErrorKind where
  | notConnected
  | refused
  | ioError
  | checksumMismatch
  | deviceError (code : Byte)
  deriving DecidableEq, Repr

/-- `raise <Kind>(info)` (R196): the kind's flag; for NotConnected, Refused and IoError the command completes at once, for
the two kinds found in phase CHECK it completes at the end of that phase. Nothing else: no mode, no mask, no handler, and
`link` stays. -/
def raiseError (k : ErrorKind) (s : State) : State :=
  match k with
  | .notConnected => completeCommand { s with fNotConnected := true }
  | .refused => completeCommand { s with fRefused := true }
  | .ioError => completeCommand { s with fIoError := true }
  | .checksumMismatch => { s with fCsMismatch := true }
  | .deviceError code => setClass (.deviceError code) s

/-! ### Unit U1 -/

/-- CS_CLEAR (R90). -/
def clearSum (s : State) : State := { s with csAcc := 0 }

/-- CS_ADD (R91). -/
def addToSum (b : Byte) (s : State) : State := { s with csAcc := addByte s.csAcc b }

/-- CS_SPLIT (R93): the outputs are driven, `cs_acc` is kept. -/
def splitSum (s : State) : State := { s with csOut := some (hi8 s.csAcc, lo8 s.csAcc) }

/-- CS_ADD of each byte in turn. -/
def addAllToSum : List Byte → State → State
  | [], s => s
  | b :: bs, s => addAllToSum bs (addToSum b s)

/-- CS_CLEAR; CS_ADD of each byte; CS_SPLIT: how U2 uses U1 (R100, R110). -/
def sumAndSplit (bytes : List Byte) (s : State) : State := splitSum (addAllToSum bytes (clearSum s))

/-! ### Outcomes -/

/-- Carry on with the next state, or stop where the first part stopped. -/
def andThen (o : Host.Outcome State Fault Refusal) (f : State → Host.Outcome State Fault Refusal) :
    Host.Outcome State Fault Refusal :=
  match o with
  | .next s => f s
  | .fault r => .fault r
  | .refused r => .refused r

/-- Carry on with what was read, or fault. -/
def withRead {α : Type} (x : Except Fault α) (f : α → Host.Outcome State Fault Refusal) :
    Host.Outcome State Fault Refusal :=
  match x with
  | .ok a => f a
  | .error r => .fault r

end Sys2Proof.Machine
end

