-- ==== Sys2Proof/Machine/Checksum.lean ====
section
/-!
DEFINITION. Unit U1's instructions (spec/40_checksum.md): CS_CLEAR, CS_ADD, SUM16, CS_SPLIT.
-/

namespace Sys2Proof.Machine

/-- CS_CLEAR (R90). -/
def execCsClear (s : State) : Host.Outcome State Fault Refusal := .next (clearSum s)

/-- CS_ADD b (R91). -/
def execCsAdd (b : Byte) (s : State) : Host.Outcome State Fault Refusal := .next (addToSum b s)

/-- SUM16 (R92): a pure function; its answer is driven, no register changes (log entry 6). -/
def execSum16 (bytes : List Byte) (s : State) : Host.Outcome State Fault Refusal :=
  .next { s with sumOut := some (sum16 bytes) }

/-- CS_SPLIT (R93). -/
def execCsSplit (s : State) : Host.Outcome State Fault Refusal := .next (splitSum s)

end Sys2Proof.Machine
end

