-- ==== Sys2Proof/Machine/Operands.lean ====
section
/-!
DEFINITION. Where an operation finds its operands: the request data in REQ (spec/10_state.md R11), the response in RX
(R13), the arguments of a TRANSFER latched into the request descriptor (spec/43_transport.md R136), and the parts of a
response (spec/42_decode.md R114).
-/

namespace Sys2Proof.Machine

/-- `REQ[0 .. req_dlen)`. -/
def requestData (s : State) : Except Fault (List Byte) := readBytes .req 0 s.reqDlen s

/-- `RX[0 .. rx_len)`, the response. -/
def response (s : State) : Except Fault (List Byte) := readBytes .rx 0 s.rxLen s

/-- The latching of R136. The node is always 0 (D6); bytes of REQ past the new length hold no value (R11). -/
def latchRequest (kind obj : Byte) (data : List Byte) (s : State) : State :=
  writeBytes .req 0 data
    (clearBuffer .req
      { s with reqKind := kind, reqNode := Config.nodeFixed, reqObj := obj, reqDlen := data.length })

/-- `rsp_data(r)` (R114): bytes 3 .. L-3, defined from five bytes on. -/
def responseData (r : List Byte) : Option (List Byte) :=
  if 5 ≤ r.length then some ((r.take (r.length - 2)).drop 3) else none

/-- The parts of a response (R114). -/
def fieldsView (r : List Byte) : FieldsView :=
  { first := r[0]?, second := r[1]?, obj := r[2]?, data := responseData r, checksum := carriedChecksum r }

end Sys2Proof.Machine
end

