-- ==== Sys2Proof/Machine/Decoder.lean ====
section
/-!
DEFINITION. Unit U2's decoder (spec/42_decode.md): VERIFY_CHECKSUM, IS_ERROR, RSP_FIELDS, and the three classes of a
response as phase CHECK carries them out (spec/43_transport.md R146).
-/

namespace Sys2Proof.Machine

/-- How VERIFY_CHECKSUM uses U1 (R110): with fewer than two bytes only the CS_CLEAR is issued. -/
def sumResponse (r : List Byte) (s : State) : State :=
  if r.length < 2 then clearSum s else sumAndSplit (summedPart r) s

/-- VERIFY_CHECKSUM of the response `r` (R110): a false answer is the error kind ChecksumMismatch (R191). -/
def verifyResponse (r : List Byte) (s : State) : State :=
  if checksumGood r then { sumResponse r s with fCsMismatch := false }
  else raiseError .checksumMismatch (sumResponse r s)

/-- IS_ERROR for a response of class `c` (R112): a non-zero code is the error kind DeviceError (R191). -/
def reportClass (c : ResponseClass) (s : State) : State :=
  match c with
  | .notStatus => setClass .notStatus s
  | .ack => setClass .ack s
  | .deviceError code => raiseError (.deviceError code) s

/-- VERIFY_CHECKSUM (R110). -/
def execVerifyChecksum (s : State) : Host.Outcome State Fault Refusal :=
  withRead (response s) fun r => .next (verifyResponse r s)

/-- IS_ERROR (R112). -/
def execIsError (s : State) : Host.Outcome State Fault Refusal :=
  withRead (response s) fun r => .next (reportClass (classify r) s)

/-- RSP_FIELDS (R114): a view, no register changes (log entry 6). -/
def execRspFields (s : State) : Host.Outcome State Fault Refusal :=
  withRead (response s) fun r => .next { s with fieldsOut := some (fieldsView r) }

/-- Phase CHECK with the response `r` of class `c` (R146): both checks, then the command is complete; in another phase no
response is being checked and nothing happens (log entry 8). -/
def checkResponse (r : List Byte) (c : ResponseClass) (s : State) : Host.Outcome State Fault Refusal :=
  if s.phase = .check then .next (completeCommand (reportClass c (verifyResponse r s))) else .next s

/-- RSP_STATUS_ACK (R112, R146). -/
def execRspStatusAck (first second : Byte) (tail : List Byte) (s : State) : Host.Outcome State Fault Refusal :=
  checkResponse (first :: second :: Config.statusMark :: Config.codeAck :: tail) .ack s

/-- RSP_STATUS_ERROR (R112, R146). -/
def execRspStatusError (first second code : Byte) (tail : List Byte) (s : State) : Host.Outcome State Fault Refusal :=
  checkResponse (first :: second :: Config.statusMark :: code :: tail) (.deviceError code) s

/-- RSP_DATA (R114, R146). -/
def execRspData (bytes : List Byte) (s : State) : Host.Outcome State Fault Refusal :=
  checkResponse bytes .notStatus s

end Sys2Proof.Machine
end

