-- ==== Sys2Proof/Machine/Encoder.lean ====
section
/-!
DEFINITION. Unit U2's encoder (spec/41_encode.md R100).
-/

namespace Sys2Proof.Machine

/-- Is the request descriptor one that `encode` has a meaning for (R100)? -/
def legalRequest (s : State) : Bool := legalKind s.reqKind && decide (s.reqDlen ≤ Config.maxTxData)

/-- Sum the body in U1, and write it into TX with the two bytes U1 gives behind it; bytes of TX past the new length hold no
value (R12). -/
def writeTelegram (body : List Byte) (s : State) : State :=
  let s1 := sumAndSplit body s
  let t := body ++ [hi8 s1.csAcc, lo8 s1.csAcc]
  { writeBytes .tx 0 t (clearBuffer .tx s1) with txLen := t.length }

/-- The block's ENCODE (R100): from the descriptor into TX; off its legal operands it has no meaning (log entry 9). -/
def encodeRequest (s : State) : Host.Outcome State Fault Refusal :=
  if legalRequest s then
    withRead (requestData s) fun data => .next (writeTelegram (requestBody s.reqKind s.reqNode s.reqObj data) s)
  else .refused .encodeHasNoMeaning

/-- ENCODE (R100). -/
def execEncode (s : State) : Host.Outcome State Fault Refusal := encodeRequest s

end Sys2Proof.Machine
end

