-- ==== Sys2Proof/Machine/Transport.lean ====
section
/-!
DEFINITION. Unit U3's commands (spec/43_transport.md): OPEN, CLOSE, TRANSFER and its two kinds QUERY and SEND, up to the
moment the framer takes over.
-/

namespace Sys2Proof.Machine

/-- A command is accepted only in phase IDLE; in another phase it is neither accepted nor remembered (R28, R134). -/
def ifReady (s : State) (accepted : State → Host.Outcome State Fault Refusal) : Host.Outcome State Fault Refusal :=
  if s.phase = .idle then accepted (acceptCommand s) else .next s

/-- OPEN (R132). -/
def execOpen (s : State) : Host.Outcome State Fault Refusal :=
  ifReady s fun s1 =>
    if s1.link = .unopened then .next (completeCommand { s1 with link := .opened, gapArmed := false })
    else .next (raiseError .refused s1)

/-- CLOSE (R133). -/
def execClose (s : State) : Host.Outcome State Fault Refusal :=
  ifReady s fun s1 =>
    if s1.link = .opened then .next (completeCommand { s1 with link := .closed })
    else .next (raiseError .notConnected s1)

/-- R136: latch, encode, and go to phase GAP. -/
def startTransfer (kind obj : Byte) (data : List Byte) (s : State) : Host.Outcome State Fault Refusal :=
  andThen (encodeRequest (latchRequest kind obj data s)) fun s2 => .next { s2 with phase := .gap }

/-- R135: the tests at acceptance, in their order; `dlen` is the length presented, of which at most 16 bytes exist. -/
def transferCommand (kind obj : Byte) (dlen : Nat) (data : List Byte) (s : State) :
    Host.Outcome State Fault Refusal :=
  ifReady s fun s1 =>
    if s1.link ≠ .opened then .next (raiseError .notConnected s1)
    else if !legalKind kind || decide (Config.maxTxData < dlen) then .next (raiseError .refused s1)
    else startTransfer kind obj data s1

/-- TRANSFER (R135, R136). -/
def execTransfer (kind obj : Byte) (dlen : BitVec 5) (data : Vector Byte 16) (s : State) :
    Host.Outcome State Fault Refusal :=
  transferCommand kind obj dlen.toNat (data.toList.take dlen.toNat) s

/-- QUERY (R101): a TRANSFER of kind `0x40`. -/
def execQuery (obj : Byte) (data : List Byte) (s : State) : Host.Outcome State Fault Refusal :=
  transferCommand Config.kindQuery obj data.length data s

/-- SEND (R102): a TRANSFER of kind `0xC0`. -/
def execSend (obj : Byte) (data : List Byte) (s : State) : Host.Outcome State Fault Refusal :=
  transferCommand Config.kindSend obj data.length data s

end Sys2Proof.Machine
end

