-- ==== Sys2Proof/Machine/Dispatch.lean ====
section
/-!
DEFINITION. One arm per constructor of Instr, each a direct call of its meaning.
-/

namespace Sys2Proof.Machine

def exec (i : Instr) (s : State) : Host.Outcome State Fault Refusal :=
  match i with
  -- the request kinds
  | .query obj data => Sys2Proof.Machine.execQuery obj data s
  | .send obj data => Sys2Proof.Machine.execSend obj data s
  -- the response classes
  | .rspStatusAck first second tail => Sys2Proof.Machine.execRspStatusAck first second tail s
  | .rspStatusError first second code tail => Sys2Proof.Machine.execRspStatusError first second code tail s
  | .rspData bytes => Sys2Proof.Machine.execRspData bytes s
  -- the host commands
  | .openLink => Sys2Proof.Machine.execOpen s
  | .closeLink => Sys2Proof.Machine.execClose s
  | .transfer kind obj dlen data => Sys2Proof.Machine.execTransfer kind obj dlen data s
  -- the operations of U2
  | .encode => Sys2Proof.Machine.execEncode s
  | .verifyChecksum => Sys2Proof.Machine.execVerifyChecksum s
  | .isError => Sys2Proof.Machine.execIsError s
  | .rspFields => Sys2Proof.Machine.execRspFields s
  -- the operations of U1
  | .csClear => Sys2Proof.Machine.execCsClear s
  | .csAdd b => Sys2Proof.Machine.execCsAdd b s
  | .sum16 bytes => Sys2Proof.Machine.execSum16 bytes s
  | .csSplit => Sys2Proof.Machine.execCsSplit s

end Sys2Proof.Machine
end

