-- ==== Sys2Proof/Machine/Framer.lean ====
section
/-!
DEFINITION. The framer (spec/43_transport.md): what one moment's signals do, phase by phase, and how the model's tests place
an instruction before it. In one moment a received byte is stored first, then the timers advance, then the framer makes one
move (log entry 2).
-/

namespace Sys2Proof.Machine

/-- The signals of the moment that comes next: those placed, and where none are, the environment's free answer (R8, R22). -/
def nextMoment (s : State) : Moment :=
  match s.moments with
  | m :: _ => m
  | [] => Config.freeMoment s.momentCount

/-- The state with that moment taken. -/
def dropMoment (s : State) : State := { s with moments := s.moments.tail, momentCount := s.momentCount + 1 }

/-- A reset (R220, R221): every register at its reset value; what is on the wire stays sent (log
entries 5 and 10). -/
def resetBlock (s : State) : State :=
  { State.reset with wireOut := s.wireOut, moments := s.moments, momentCount := s.momentCount }

/-- Is the receiver window open (R143)? -/
def windowOpen (s : State) : Bool := (s.phase == .tx || s.phase == .rx) && decide (s.rxLen < Config.rxBufSize)

/-- A received byte is stored, or dropped without a trace (R143, R148). -/
def receiveByte (b : Byte) (s : State) : State :=
  if windowOpen s then { writeByte .rx s.rxLen b s with rxLen := s.rxLen + 1 } else s

/-- The receiver's signal of a moment (R31). -/
def receive (received : Option Byte) (s : State) : State :=
  match received with
  | some b => receiveByte b s
  | none => s

/-- Does a tick advance `rx_timer` (R144)? Only in phase RX, while the read has not ended. -/
def readTimerRuns (s : State) : Bool :=
  s.phase == .rx && decide (s.rxLen ≠ Config.rxBufSize) && decide (s.rxTimer ≠ Config.timeoutTicks)

/-- One tick (R32): `gap_timer` counts in every phase and saturates (R19, R202), `rx_timer` counts in phase RX. -/
def tickTimers (s : State) : State :=
  { s with
    gapTimer := min (s.gapTimer + 1) Config.gapTicks
    rxTimer := if readTimerRuns s then s.rxTimer + 1 else s.rxTimer }

/-- The time base of a moment (R32). -/
def advanceTime (tick : Bool) (s : State) : State := if tick then tickTimers s else s

/-- What the line and the time base do in a moment, before the framer moves (R195: a received byte beats the tick). -/
def observe (m : Moment) (s : State) : State := advanceTime m.tick (receive m.received s)

/-- Phase IDLE: a presented command is accepted (R28, R134). -/
def moveIdle (command : Option HostCommand) (s : State) : Host.Outcome State Fault Refusal :=
  match command with
  | some c => exec (decodeCommand c) s
  | none => .next s

/-- Has the inter-command gap elapsed (R138)? -/
def gapElapsed (s : State) : Bool := !s.gapArmed || decide (Config.gapTicks ≤ s.gapTimer)

/-- Phase GAP (R138). -/
def moveGap (s : State) : Host.Outcome State Fault Refusal :=
  if gapElapsed s then .next { s with txIdx := 0, phase := .tx } else .next s

/-- Byte `b` goes to the transmitter (R140); after the last one the read begins. -/
def handOver (b : Byte) (s : State) : State :=
  let s1 := { s with wireOut := s.wireOut ++ [b], txIdx := s.txIdx + 1 }
  if s1.txIdx = s1.txLen then { s1 with gapTimer := 0, gapArmed := true, rxTimer := 0, phase := .rx } else s1

/-- The write failed (R141). -/
def failWrite (s : State) : State :=
  raiseError .ioError (clearBuffer .rx { s with rxLen := 0, gapTimer := 0, gapArmed := true })

/-- Phase TX (R140, R141): `tx_fail` takes precedence over `tx_ready`. -/
def moveTx (ready fail : Bool) (s : State) : Host.Outcome State Fault Refusal :=
  if fail then .next (failWrite s)
  else if ready then withRead (readByte .tx s.txIdx s) fun b => .next (handOver b s)
  else .next s

/-- Has the read ended (R142, R144)? -/
def readEnded (s : State) : Bool := decide (s.rxLen = Config.rxBufSize) || decide (s.rxTimer = Config.timeoutTicks)

/-- Phase RX (R144). -/
def moveRx (s : State) : Host.Outcome State Fault Refusal :=
  if readEnded s then .next { s with phase := .check } else .next s

/-- Phase CHECK: the response in RX is decoded to its class and carried out (R146); no response is IoError (R145). -/
def moveCheck (s : State) : Host.Outcome State Fault Refusal :=
  withRead (response s) fun r =>
    match decodeResponse r with
    | .ok i => exec i s
    | .error _ => .next (raiseError .ioError s)

/-- One move of the framer (R152). -/
def move (m : Moment) (s : State) : Host.Outcome State Fault Refusal :=
  match s.phase with
  | .idle => moveIdle m.command s
  | .gap => moveGap s
  | .tx => moveTx m.txReady m.txFail s
  | .rx => moveRx s
  | .check => moveCheck s

/-- What moment `m` does to the block, in whatever state stands around it. It reads neither `moments` nor `momentCount`. -/
def runMoment (m : Moment) (s : State) : Host.Outcome State Fault Refusal :=
  if m.reset then .next (resetBlock s) else move m (observe m s)

/-! ### The block by itself -/

/-- The block with no signals placed before it. -/
def Block.alone (b : Block) : State := { toBlock := b, moments := [], momentCount := 0 }

/-- The state whose block is `b`; the signals placed stay. -/
def State.withBlock (s : State) (b : Block) : State := { s with toBlock := b }

/-- The step relation of the block (R8, R22): its parameter is the environment's and the host's signals, its state holds
registers and outputs only. -/
def blockStep (m : Moment) (b : Block) : Host.Outcome Block Fault Refusal :=
  match runMoment m b.alone with
  | .next s => .next s.toBlock
  | .fault f => .fault f
  | .refused r => .refused r

/-! ### Placing an instruction before the framer (log entry 13) -/

/-- The host presents `c` in the next moment, and the port is ready. -/
def placeCommand (c : HostCommand) (s : State) : State :=
  { s with phase := .idle, moments := { Moment.quiet with command := some c } :: s.moments }

/-- The read has ended with the response `r`, and the next moment is quiet. -/
def placeResponse (r : List Byte) (s : State) : State :=
  { s with phase := .check, rx := cellsFrom 0 r, rxLen := r.length, moments := .quiet :: s.moments }

/-- Place the instruction of a telegram: a request as the command that asks for it, a response in RX. -/
def placeTelegram (d : Direction) (t : List Byte) (s : State) : State :=
  match d with
  | .fromDevice => placeResponse t s
  | .toDevice =>
    match (decodeRequest t).toOption.bind hostCommand with
    | some c => placeCommand c s
    | none => s

end Sys2Proof.Machine
end

