-- ==== Sys2Proof/Machine/Step.lean ====
section
/-!
DEFINITION. The step: one moment. Behind it, how a table word is put where the step takes its next instruction from.
-/

namespace Sys2Proof.Machine

/-- One step: the next moment's signals, then the framer's move. -/
def step (s : State) : Host.Outcome State Fault Refusal := runMoment (nextMoment s) (dropMoment s)

/-- The state with a table word's instruction where the next step takes it from. -/
def State.withFetchWord (s : State) (nbits w : Nat) : State :=
  match tableBytes nbits w with
  | some (d, t) => placeTelegram d t s
  | none => s

end Sys2Proof.Machine
end

