-- ==== Sys2Proof/Machine/HostPort.lean ====
section
/-!
DEFINITION. The signals toward the outside as functions of the registers: the result port (spec/10_state.md R29), `cmd_ready`
(R28) and the transmit interface (R30). A read the architecture forbids is a fault, never a value (R13, R49, U5, U6).
-/

namespace Sys2Proof.Machine

/-- `cmd_ready` (R28). -/
def cmdReady (s : State) : Bool := s.phase == .idle

/-- `tx_valid` (R30). -/
def txValid (s : State) : Bool := s.phase == .tx

/-- `tx_data` (R30): `TX[tx_idx]` in phase TX. Outside phase TX the spec gives it no value, and reading it there is a fault, which
is the model's choice (DESIGN CHOICE, safe: log entry 18). -/
def txData (s : State) : Except Fault Byte :=
  if txValid s then readByte .tx s.txIdx s else .error .txDataNotValid

/-- A result register as the host reads it: only while `done = 1` (R29, R49). -/
def hostRead {α : Type} (reg : State → α) (s : State) : Except Fault α :=
  if s.done then .ok (reg s) else .error .resultNotReady

/-- `rx_len` as the host reads it. -/
def hostRxLen (s : State) : Except Fault Nat := hostRead (·.rxLen) s

/-- `code` as the host reads it. -/
def hostCode (s : State) : Except Fault Byte := hostRead (·.code) s

/-- The outcome as the host reads it (R16). -/
def hostOutcome (s : State) : Except Fault CommandOutcome :=
  match outcome s with
  | some o => .ok o
  | none => .error .resultNotReady

/-- `RX[i]` as the host reads it: only while `done = 1`, and only below `rx_len` (R13, R29). -/
def hostRx (i : Nat) (s : State) : Except Fault Byte :=
  if !s.done then .error .resultNotReady
  else if i < s.rxLen then readByte .rx i s
  else .error (.noValue .rx i)

end Sys2Proof.Machine
end

