-- ==== Sys2Proof/Machine/HostSoftware.lean ====
section
/-!
DEFINITION. The host software above the block as spec/44_host_contract.md records it: the object table (R170), the requests
its accessors and its facade present (R171 to R182), how they slice a response, and the scaling of setpoints (R179, R180). It
is outside the hardware (spec/00_scope.md R4): no state, no step and no instruction uses it (log entry 15).
-/

namespace Sys2Proof.Machine

/-- The encoding kind of an object (R170). -/
inductive ObjectKind where
  | text
  | float
  | integer
  | mask
  deriving DecidableEq, Repr

/-- The access the source states for an object (R170). -/
inductive ObjectAccess where
  | notStated
  | readWrite
  | readOnly
  deriving DecidableEq, Repr

/-- A row of the object table. -/
structure DeviceObject where
  id : Byte
  kind : ObjectKind
  access : ObjectAccess
  deriving DecidableEq, Repr

/-- The object table (R170). -/
def objectTable : List DeviceObject :=
  [⟨0, .text, .notStated⟩, ⟨1, .text, .notStated⟩, ⟨2, .float, .notStated⟩, ⟨3, .float, .notStated⟩,
   ⟨4, .float, .notStated⟩, ⟨6, .text, .notStated⟩, ⟨8, .text, .notStated⟩, ⟨9, .text, .notStated⟩] ++
  [⟨19, .integer, .notStated⟩, ⟨38, .integer, .readWrite⟩, ⟨39, .integer, .readWrite⟩, ⟨50, .integer, .readWrite⟩,
   ⟨51, .integer, .readWrite⟩, ⟨54, .mask, .readWrite⟩, ⟨71, .mask, .readOnly⟩]

/-- Every `get_…(id)` presents `QUERY id` (R171 to R174). -/
def getRequest (id : Byte) : Instr := .query id []

/-- `set_integer(id, value)` (R173). -/
def setIntegerRequest (id : Byte) (value : Word) : Instr := .send id [hi8 value, lo8 value]

/-- `set_binary(id, mask, value)` (R175). -/
def setBinaryRequest (id mask value : Byte) : Instr := .send id [mask, value]

/-- The remote/local helper (R176); which value of the bit means remote is not stated. -/
def remoteRequest (bit : Bool) : Instr := setBinaryRequest 54 0x10 (if bit then 0x10 else 0x00)

/-- The output helper (R177). -/
def outputRequest (bit : Bool) : Instr := setBinaryRequest 54 0x01 (if bit then 0x01 else 0x00)

/-- What the facade's `open` presents (R178). -/
def openSession : List Instr := [.openLink, getRequest 2, getRequest 3]

/-- What the facade's `close` presents (R182). -/
def closeSession : List Instr := [.closeLink]

/-- `get_actual` (R181). The layout of the six data bytes is not in the spec. -/
def statusRequest : Instr := getRequest 71

/-- The error kinds the host's software raises and the block never does (spec/60_exceptions.md R192). -/
inductive HostError where
  | connectionError
  | divisionGuard
  deriving DecidableEq, Repr

/-- The nominal ratings the facade's `open` gathers (R178): ConnectionError if either read fails. -/
def nominalRatings {α : Type} (uNom iNom : Option α) : Except HostError (α × α) :=
  match uNom, iNom with
  | some u, some i => .ok (u, i)
  | some _, none => .error .connectionError
  | none, _ => .error .connectionError

/-- `raw_to_physical` (R179). -/
def rawToPhysical (nominal : Rat) (raw : Word) : Rat := nominal * raw.toNat / 25600

/-- The nearest integer (R179); how a tie rounds is free. -/
def roundNearest (x : Rat) : Int :=
  if x - x.floor < 1 / 2 then x.floor
  else if 1 / 2 < x - x.floor then x.floor + 1
  else if Config.tieUp x then x.floor + 1
  else x.floor

/-- `physical_to_raw` (R179), with the guard of R180 against a zero rating. -/
def physicalToRaw (nominal physical : Rat) : Except HostError Int :=
  if nominal = 0 then .error .divisionGuard else .ok (roundNearest (physical * 25600 / nominal))

/-- The integer written for a raw setpoint (R180). -/
def setpointWord (raw : Int) : Word := if 0 ≤ raw ∧ raw ≤ 25600 then BitVec.ofNat 16 raw.toNat else Config.offScaleRaw raw

/-- `set_voltage` and `set_current` (R180), on object 50 and 51. -/
def setpointRequest (id : Byte) (nominal physical : Rat) : Except HostError Instr :=
  match physicalToRaw nominal physical with
  | .ok raw => .ok (setIntegerRequest id (setpointWord raw))
  | .error e => .error e

/-- `get_string` (R171): bytes 3 .. L-4. -/
def readText (r : List Byte) : Option (List Byte) :=
  if 6 ≤ r.length then some ((r.take (r.length - 3)).drop 3) else none

/-- `get_float` (R172): the four bytes of the float, most significant first; defined for nine bytes only (U7). -/
def readFloatBytes (r : List Byte) : Option (List Byte) := if r.length = 9 then responseData r else none

/-- `get_integer` (R173): bytes 3 and 4. -/
def readInteger (r : List Byte) : Option Word :=
  match r.drop 3 with
  | h :: l :: _ => some (be16 h l)
  | _ => none

/-- The helpers' answer (R176, R183): acknowledged, and the outcome is `Ok`. -/
def acknowledged (s : State) : Bool := s.fAck && decide (outcome s = some .ok)

end Sys2Proof.Machine
end

