-- ==== Sys2Proof/Safety.lean ====
section
/-!
DEFINITION. What the statements speak of: the invariant of the block, and small notions over `exec` and `step`.
-/

namespace Sys2Proof.Machine

/-- The bytes a buffer holds, in address order. -/
def bytesOf (m : Memory) : List Byte := m.map Prod.snd

/-- A buffer holds a value at exactly the addresses below `n`. -/
abbrev FilledTo (m : Memory) (n : Nat) : Prop := m.map Prod.fst = List.range n

/-- Each buffer holds a value exactly below its length register, and the lengths and the index are legal (the summary table
of spec/10_state.md; R11, R12, R13, R14, R46). -/
structure BuffersFit (s : State) : Prop where
  req : FilledTo s.req s.reqDlen
  tx : FilledTo s.tx s.txLen
  rx : FilledTo s.rx s.rxLen
  reqLen : s.reqDlen ≤ Config.maxTxData
  txLen : s.txLen = 0 ∨ 5 ≤ s.txLen ∧ s.txLen ≤ Config.txBufSize
  txIdx : s.txIdx ≤ Config.txBufSize
  rxLen : s.rxLen ≤ Config.rxBufSize

/-- The timers stay in their ranges (R19). -/
structure TimersBounded (s : State) : Prop where
  gap : s.gapTimer ≤ Config.gapTicks
  read : s.rxTimer ≤ Config.timeoutTicks

/-- All outcome flags and `code` are 0, `done` with them. -/
def NoRecord (s : State) : Prop := clearFlags s = s

/-- While a transfer is in flight (R135, R136, R150): the link is open, nothing is reported, and TX holds the telegram of the
latched request, whose node is 0. -/
structure InFlight (s : State) : Prop where
  linkOpen : s.link = .opened
  noRecord : NoRecord s
  kind : legalKind s.reqKind = true
  node : s.reqNode = Config.nodeFixed
  telegram : bytesOf s.tx = encodeTelegram s.reqKind s.reqNode s.reqObj (bytesOf s.req)

/-- How much of the telegram is on the wire, phase by phase (R138, R140, R143). -/
structure WireMatches (s : State) : Prop where
  gap : s.phase = .gap → s.rxLen = 0
  tx : s.phase = .tx → s.txIdx < s.txLen ∧ (bytesOf s.tx).take s.txIdx <:+ s.wireOut
  rx : s.phase = .rx ∨ s.phase = .check → s.txIdx = s.txLen ∧ s.gapArmed = true ∧ bytesOf s.tx <:+ s.wireOut

/-- The result of a completed command (R15, R110, R112): the class flags and `code` are what the decoder says of the response
kept in RX, the checksum flag too, and a command that ended early keeps no response. -/
structure ResultsMatch (s : State) : Prop where
  classFlags : setClass (classify (bytesOf s.rx)) s = s
  checksum : s.fCsMismatch = (decide (0 < s.rxLen) && !checksumGood (bytesOf s.rx))
  sum : 2 ≤ s.rxLen → s.csAcc = sum16 (summedPart (bytesOf s.rx))
  notConnected : s.fNotConnected = true → s.fRefused = false ∧ s.fIoError = false ∧ s.rxLen = 0
  refused : s.fRefused = true → s.fNotConnected = false ∧ s.fIoError = false ∧ s.rxLen = 0
  ioError : s.fIoError = true → s.fNotConnected = false ∧ s.fRefused = false ∧ s.rxLen = 0

/-- The invariant of the block. -/
structure Inv (s : State) : Prop where
  buffers : BuffersFit s
  timers : TimersBounded s
  inFlight : s.phase ≠ .idle → InFlight s
  wire : WireMatches s
  results : s.done = true → ResultsMatch s
  fresh : s.done = false → NoRecord s

/-- Instructions one after the other, each on the state the one before left. -/
def execAll : List Instr → State → Host.Outcome State Fault Refusal
  | [], s => .next s
  | i :: is, s => andThen (exec i s) (execAll is)

/-- A run of `n` steps meets no fault and no refusal. -/
def RunsOn (n : Nat) (s : State) : Prop := ∃ t, Host.Core.run core n s = .next t

/-- A moment at which only `tx_ready` is given. -/
def readyMoment : Moment := { Moment.quiet with txReady := true }

/-- A moment at which only a received byte is given. -/
def byteMoment (b : Byte) : Moment := { Moment.quiet with received := some b }

/-- A moment at which only a tick is given. -/
def tickMoment : Moment := { Moment.quiet with tick := true }

/-- A moment at which only a command is given. -/
def commandMoment (c : HostCommand) : Moment := { Moment.quiet with command := some c }

end Sys2Proof.Machine
end

