-- ==== Sys2Proof/Certificates/Slice0/Obligations.lean ====
section
/-!
DEFINITION. The statements for the provers, each about every state or every operand it names. Each docstring cites the rule
of spec/ it formalises; "the model's" marks what a log entry chose.
-/

open Sys2Proof Sys2Proof.Machine

/-! ### Reset -/

/-- R36: after reset every scalar register and flag is 0, `phase` is IDLE, `link` is UNOPENED, and no byte of a buffer holds a
value. -/
def Obligations.ResetHoldsTheSpecValues : Prop :=
  State.reset.csAcc = 0 ∧ State.reset.reqKind = 0 ∧ State.reset.reqNode = 0 ∧ State.reset.reqObj = 0 ∧
  State.reset.reqDlen = 0 ∧ State.reset.txLen = 0 ∧ State.reset.txIdx = 0 ∧ State.reset.rxLen = 0 ∧
  State.reset.phase = .idle ∧ State.reset.link = .unopened ∧ State.reset.done = false ∧
  State.reset.fNotConnected = false ∧ State.reset.fRefused = false ∧ State.reset.fIoError = false ∧
  State.reset.fCsMismatch = false ∧ State.reset.fIsStatus = false ∧ State.reset.fAck = false ∧
  State.reset.fDevError = false ∧ State.reset.code = 0 ∧ State.reset.rxTimer = 0 ∧ State.reset.gapTimer = 0 ∧
  State.reset.gapArmed = false ∧
  ∀ sp a, (State.reset.buffer sp).read a = none

/-- R220: a moment with the reset signal, in any state, puts every register at its reset value in one step; afterwards
`cmd_ready = 1`, `tx_valid = 0`, the receiver window is closed and the outcome is undefined. What was handed to the wire stays
there (the model keeps it in `wireOut`, log entry 5). -/
def Obligations.ResetSignalRestoresEveryRegister : Prop :=
  ∀ s : State, (nextMoment s).reset = true →
    ∃ t, step s = .next t ∧
      t = { State.reset with wireOut := s.wireOut, moments := s.moments.tail, momentCount := s.momentCount + 1 } ∧
      cmdReady t = true ∧ txValid t = false ∧ windowOpen t = false ∧ outcome t = none

/-! ### The step and the decoders -/

/-- In IDLE, a presented command is decoded and carried out: the step is `exec` of it, after the moment was taken and the
timers had their tick (the model's order, log entry 2). With no command the block does nothing else. -/
def Obligations.StepRunsThePresentedCommand : Prop :=
  ∀ s : State, s.phase = .idle → (nextMoment s).reset = false →
    step s =
      match (nextMoment s).command with
      | some c => exec (decodeCommand c) (observe (nextMoment s) (dropMoment s))
      | none => .next (observe (nextMoment s) (dropMoment s))

/-- In CHECK, the response in RX is decoded, and the step is `exec` of what it decodes to. -/
def Obligations.StepRunsTheResponseClass : Prop :=
  ∀ (s : State) (r : List Byte) (i : Instr), s.phase = .check → (nextMoment s).reset = false →
    response (observe (nextMoment s) (dropMoment s)) = .ok r → decodeResponse r = .ok i →
    step s = exec i (observe (nextMoment s) (dropMoment s))

/-- A word of the opcode table, placed where the step takes its next instruction from, is run by the very next step (the
model's placing, log entries 12 and 13). -/
def Obligations.StepRunsAPlacedTableWord : Prop :=
  ∀ (s : State) (nbits w : Nat) (i : Instr), decodeTableWord nbits w = some i →
    step (s.withFetchWord nbits w) = exec i (dropMoment (s.withFetchWord nbits w))

/-- Byte strings of spec/95_test_vectors.md (QUERY 71; SEND 54, [0x10, 0x10]; the acknowledge; the device error 5; the data
response for object 2) decode to what they stand for. -/
def Obligations.SpecByteStringsDecode : Prop :=
  decodeRequest [0x70, 0x00, 0x47, 0x00, 0xB7] = .ok (.query 71 []) ∧
  decodeRequest [0xF1, 0x00, 0x36, 0x10, 0x10, 0x01, 0x47] = .ok (.send 54 [0x10, 0x10]) ∧
  decodeResponse [0x80, 0x00, 0xFF, 0x00, 0x01, 0x7F] = .ok (.rspStatusAck 0x80 0x00 [0x01, 0x7F]) ∧
  decodeResponse [0x80, 0x00, 0xFF, 0x05, 0x01, 0x84] = .ok (.rspStatusError 0x80 0x00 0x05 [0x01, 0x84]) ∧
  decodeResponse [0x83, 0x00, 0x02, 0x41, 0xF0, 0x00, 0x00, 0x01, 0xB6] =
    .ok (.rspData [0x83, 0x00, 0x02, 0x41, 0xF0, 0x00, 0x00, 0x01, 0xB6])

/-- Decode and encode agree: every well-formed instruction that has a telegram is decoded from it, with every operand. -/
def Obligations.DecodeInvertsEncode : Prop :=
  ∀ (i : Instr) (t : List Byte), i.wellFormed = true → encode i = some t → decode (direction i) t = .ok i

/-- Every non-empty response decodes, encodes back to the very same bytes, and is well formed up to the size of RX. -/
def Obligations.ResponseDecodingDropsNoByte : Prop :=
  ∀ r : List Byte, r ≠ [] →
    ∃ i, decodeResponse r = .ok i ∧ encode i = some r ∧ (r.length ≤ Config.rxBufSize → i.wellFormed = true)

/-- A request telegram that decodes and whose checksum is right is exactly the encoding of what it decodes to. -/
def Obligations.IntactRequestIsItsEncoding : Prop :=
  ∀ (t : List Byte) (i : Instr), decodeRequest t = .ok i → checksumGood t = true →
    encode i = some t ∧ i.wellFormed = true

/-- R68, R101, R102: a TRANSFER of kind `0x40` acts as QUERY and one of kind `0xC0` as SEND with the bytes presented, in
every state; and decoding a command changes nothing in what it does. -/
def Obligations.KindMakesTransferQueryOrSend : Prop :=
  ∀ (obj : Byte) (dlen : BitVec 5) (data : Vector Byte 16) (s : State),
    (dlen.toNat ≤ 16 →
      exec (.transfer 0x40 obj dlen data) s = exec (.query obj (data.toList.take dlen.toNat)) s ∧
      exec (.transfer 0xC0 obj dlen data) s = exec (.send obj (data.toList.take dlen.toNat)) s) ∧
    ∀ kind, exec (decodeCommand (.transfer kind obj dlen data)) s = exec (.transfer kind obj dlen data) s

/-- Presenting a well-formed QUERY or SEND on the command port gives a command that decodes to it. -/
def Obligations.PresentedCommandDecodesBack : Prop :=
  ∀ (obj : Byte) (data : List Byte), data.length ≤ 16 →
    (∃ c, hostCommand (.query obj data) = some c ∧ decodeCommand c = .query obj data) ∧
    (∃ c, hostCommand (.send obj data) = some c ∧ decodeCommand c = .send obj data)

/-- R8, R22: the signals are a parameter of the step relation `blockStep`, whose state, the block, has no signal in it. A step is
`runMoment` of the signals that come next, on the state with their moment taken; and `runMoment` is `blockStep` of the same
signals on the block, which leaves what stands around the block (log entry 1) as it is and reads none of it. -/
def Obligations.SignalsAreAParameter : Prop :=
  (∀ s : State, step s = runMoment (nextMoment s) (dropMoment s)) ∧
  (∀ (m : Moment) (rest : List Moment) (s : State), s.moments = m :: rest → nextMoment s = m) ∧
  ∀ (m : Moment) (s : State),
    runMoment m s =
      match blockStep m s.toBlock with
      | .next b => .next (s.withBlock b)
      | .fault f => .fault f
      | .refused r => .refused r

/-- R30: `tx_data` is `TX[tx_idx]` in phase TX, and the byte a hand-over puts on the wire is that one. Outside phase TX reading
it is a fault (the model's, log entry 18). -/
def Obligations.OfferedByteIsTheNextOfTX : Prop :=
  ∀ s : State,
    (s.phase = .tx → txValid s = true ∧ txData s = readByte .tx s.txIdx s ∧
      ∀ b t, (nextMoment s).reset = false → step s = .next t → t.wireOut = s.wireOut ++ [b] → txData s = .ok b) ∧
    (s.phase ≠ .tx → txValid s = false ∧ txData s = .error .txDataNotValid)

/-! ### Unit U1 -/

/-- R90, R91, R93: CS_CLEAR, CS_ADD and CS_SPLIT run in every state. CS_CLEAR and CS_ADD change `cs_acc` only, CS_ADD adding
the unsigned byte modulo 65536; CS_SPLIT drives bits 15:8 and bits 7:0 on the outputs and changes no register. -/
def Obligations.AccumulatorOperations : Prop :=
  (∀ s, exec .csClear s = .next { s with csAcc := 0 }) ∧
  (∀ (b : Byte) (s : State), ∃ v : Word, v.toNat = (s.csAcc.toNat + b.toNat) % 65536 ∧
    exec (.csAdd b) s = .next { s with csAcc := v }) ∧
  (∀ s : State, ∃ hi lo : Byte, hi.toNat = s.csAcc.toNat / 256 ∧ lo.toNat = s.csAcc.toNat % 256 ∧
    exec .csSplit s = .next { s with csOut := some (hi, lo) })

/-- R92: SUM16 as defined, as the integer sum modulo 65536, blind to the order of the bytes, answered by the operation SUM16
without a change to any register; and CS_CLEAR followed by CS_ADD of each byte leaves it in `cs_acc`. -/
def Obligations.SumFollowsItsDefinition : Prop :=
  sum16 [] = 0 ∧
  (∀ (bs : List Byte) (b : Byte), (sum16 (bs ++ [b])).toNat = ((sum16 bs).toNat + b.toNat) % 65536) ∧
  (∀ bs : List Byte, (sum16 bs).toNat = (bs.map BitVec.toNat).sum % 65536) ∧
  (∀ bs cs : List Byte, bs.Perm cs → sum16 bs = sum16 cs) ∧
  (∀ (bs : List Byte) (s : State), exec (.sum16 bs) s = .next { s with sumOut := some (sum16 bs) }) ∧
  (∀ (bs : List Byte) (s : State),
    execAll (.csClear :: bs.map Instr.csAdd) s = .next { s with csAcc := sum16 bs })

/-- R94: ENCODE's sums are at most `0x12ED` and VERIFY_CHECKSUM's at most `0x619E`, so `mod 65536` changes none of them; the
shortest sequence of `0xFF` that wraps has 258 bytes. -/
def Obligations.AccumulatorNeverWraps : Prop :=
  (∀ (kind node obj : Byte) (data : List Byte), data.length ≤ 16 →
    (sum16 (requestBody kind node obj data)).toNat = ((requestBody kind node obj data).map BitVec.toNat).sum ∧
    (sum16 (requestBody kind node obj data)).toNat ≤ 0x12ED) ∧
  (∀ r : List Byte, r.length ≤ 100 →
    (sum16 (summedPart r)).toNat = ((summedPart r).map BitVec.toNat).sum ∧ (sum16 (summedPart r)).toNat ≤ 0x619E) ∧
  (∀ n, n ≤ 257 → (sum16 (List.replicate n 0xFF)).toNat = 255 * n) ∧
  sum16 (List.replicate 258 0xFF) = 0x00FE

/-- R95: a telegram built by ENCODE verifies, and flipping any one bit of a telegram that verifies makes verification fail, in
a summed byte and in a checksum byte alike. -/
def Obligations.OneFlippedBitIsDetected : Prop :=
  (∀ (kind node obj : Byte) (data : List Byte), checksumGood (encodeTelegram kind node obj data) = true) ∧
  ∀ (r : List Byte) (i k : Nat) (h : i < r.length), k < 8 → checksumGood r = true →
    checksumGood (r.set i (r[i] ^^^ (1#8 <<< k))) = false

/-! ### Unit U2, the encoder -/

/-- R62, R63: the start delimiter of a legal request is `0x30 + kind + adj` without a carry between its nibbles: KIND and the
constant 0b11 above, LEN below, `n - 1` or 0, so LEN is the same for no data and for one byte. -/
def Obligations.StartDelimiterHasTheBitLayout : Prop :=
  ∀ n, n ≤ 16 →
    (startDelimiter 0x40 n).toNat = 0x70 + (if n = 0 then 0 else n - 1) ∧
    (startDelimiter 0xC0 n).toNat = 0xF0 + (if n = 0 then 0 else n - 1) ∧
    delimiterHigh (startDelimiter 0x40 n) = 0b0111#4 ∧ delimiterHigh (startDelimiter 0xC0 n) = 0b1111#4 ∧
    (delimiterLen (startDelimiter 0x40 n)).toNat = (if n = 0 then 0 else n - 1) ∧
    (delimiterLen (startDelimiter 0xC0 n)).toNat = (if n = 0 then 0 else n - 1)

/-- R103, all six parts: length, length adjustment, recoverable fields and injectivity, the start delimiter alone not
injective in the length, the checksum verifies, the low nibble. -/
def Obligations.EncodedRequestProperties : Prop :=
  (∀ (k d o : Byte) (data : List Byte), (encodeTelegram k d o data).length = 5 + data.length) ∧
  (∀ (k d o : Byte) (data : List Byte), data ≠ [] →
    (encodeTelegram k d o data)[0]? =
      (encodeTelegram k d o [])[0]?.map fun sd => sd + BitVec.ofNat 8 (data.length - 1)) ∧
  (∀ (k d o : Byte) (data : List Byte), legalKind k = true → data.length ≤ 16 →
    ∃ sd rest, encodeTelegram k d o data = sd :: d :: o :: rest ∧
      rest.take (rest.length - 2) = data ∧
      (sd.extractLsb' 6 2 = 0b01#2 ∧ k = 0x40 ∨ sd.extractLsb' 6 2 = 0b11#2 ∧ k = 0xC0) ∧
      (sd.extractLsb' 0 4).toNat = (if data.length = 0 then 0 else data.length - 1)) ∧
  (∀ (k k' d d' o o' : Byte) (data data' : List Byte), legalKind k = true → legalKind k' = true →
    data.length ≤ 16 → data'.length ≤ 16 → encodeTelegram k d o data = encodeTelegram k' d' o' data' →
    k = k' ∧ d = d' ∧ o = o' ∧ data = data') ∧
  (∀ (k d o b : Byte), (encodeTelegram k d o [])[0]? = (encodeTelegram k d o [b])[0]?) ∧
  (∀ (k d o : Byte) (data : List Byte), checksumGood (encodeTelegram k d o data) = true)

/-- R100: ENCODE of a descriptor with a legal kind and at most 16 data bytes writes the encoded telegram into TX and its
length, `5 + req_dlen`, into `tx_len`, leaves its sum in `cs_acc` and its checksum bytes on U1's outputs, and changes nothing
else. -/
def Obligations.EncodeWritesTheTelegram : Prop :=
  ∀ (s : State) (data : List Byte), s.reqKind = 0x40 ∨ s.reqKind = 0xC0 → s.reqDlen ≤ 16 →
    requestData s = .ok data →
    ∃ (body : List Byte) (sum : Word),
      body = (0x30 + s.reqKind + (if data = [] then 0 else BitVec.ofNat 8 (data.length - 1)) : Byte) ::
        s.reqNode :: s.reqObj :: data ∧
      sum.toNat = (body.map BitVec.toNat).sum % 65536 ∧
      exec .encode s =
        .next { s with
          csAcc := sum, csOut := some (hi8 sum, lo8 sum),
          tx := cellsFrom 0 (body ++ [hi8 sum, lo8 sum]), txLen := 5 + s.reqDlen }

/-- Off its legal operands ENCODE is refused by name: R100 gives `encode` no meaning there. -/
def Obligations.EncodeRefusesIllegalDescriptors : Prop :=
  ∀ s : State, (s.reqKind ≠ 0x40 ∧ s.reqKind ≠ 0xC0) ∨ 16 < s.reqDlen →
    exec .encode s = .refused .encodeHasNoMeaning

/-! ### Unit U2, the decoder -/

/-- R110: VERIFY_CHECKSUM of the response. False for fewer than two bytes, else the sum of all but the last two bytes against
those two, high byte first; `f_cs_mismatch` is written, `cs_acc` is left holding the sum (0 for one byte), U1's outputs show its
two bytes, and no other register changes. For an empty response `cs_acc` is 0 too, which is the model's (log entry 4), and for
fewer than two bytes U1's outputs keep what they showed, which is the model's (log entry 6). -/
def Obligations.VerifyChecksumWritesItsFlag : Prop :=
  ∀ (s : State) (r : List Byte), response s = .ok r →
    ∃ good : Bool,
      (good = true ↔ ∃ hi lo, r = r.take (r.length - 2) ++ [hi, lo] ∧
        hi.toNat * 256 + lo.toNat = ((r.take (r.length - 2)).map BitVec.toNat).sum % 65536) ∧
      exec .verifyChecksum s =
        .next { s with
          fCsMismatch := !good
          csAcc := if r.length < 2 then 0 else sum16 (r.take (r.length - 2))
          csOut := if r.length < 2 then s.csOut else
            some (hi8 (sum16 (r.take (r.length - 2))), lo8 (sum16 (r.take (r.length - 2)))) }

/-- R112: IS_ERROR of the response. A status response has at least four bytes and `0xFF` in byte 2; code 0 is an acknowledge,
any other code a device error; a response of the third kind clears all four. Nothing else changes. That IS_ERROR runs in every
phase, and of an empty response clears all four, is the model's (log entry 4). -/
def Obligations.IsErrorWritesTheClass : Prop :=
  ∀ (s : State) (r : List Byte), response s = .ok r →
    (∀ a b c tail, r = a :: b :: 0xFF :: c :: tail →
      exec .isError s =
        .next { s with fIsStatus := true, fAck := decide (c = 0), fDevError := decide (c ≠ 0), code := c }) ∧
    ((∀ a b c tail, r ≠ a :: b :: 0xFF :: c :: tail) →
      exec .isError s = .next { s with fIsStatus := false, fAck := false, fDevError := false, code := 0 })

/-- R114: RSP_FIELDS shows the parts of the response, each where it is defined, and changes no register. -/
def Obligations.FieldsViewShowsTheResponse : Prop :=
  ∀ (s : State) (r : List Byte), response s = .ok r →
    ∃ v : FieldsView, exec .rspFields s = .next { s with fieldsOut := some v } ∧
      v.first = r[0]? ∧ v.second = r[1]? ∧ v.obj = r[2]? ∧
      (r.length < 5 → v.data = none) ∧
      (∀ a b c data hi lo, r = a :: b :: c :: (data ++ [hi, lo]) → v.data = some data) ∧
      (r.length < 2 → v.checksum = none) ∧
      (∀ init hi lo, r = init ++ [hi, lo] → v.checksum = some (be16 hi lo) ∧
        (be16 hi lo).toNat = hi.toNat * 256 + lo.toNat)

/-- R112, R114, R146: each response class carried out in phase CHECK. Both checks write their flags, the command completes,
and RX, `rx_len`, `link`, the request, TX, the timers and the wire are left alone. That a class is an instruction which carries
the whole response is the model's (log entry 8), and so is that U1's outputs keep what they showed for a response of fewer than
two bytes (log entry 6). -/
def Obligations.ResponseClassesComplete : Prop :=
  (∀ (a b : Byte) (tail : List Byte) (s : State), s.phase = .check →
    ∃ r v o, r = a :: b :: 0xFF :: 0x00 :: tail ∧ v = sum16 (summedPart r) ∧ o = some (hi8 v, lo8 v) ∧
      exec (.rspStatusAck a b tail) s =
        .next { s with
          csAcc := v, csOut := o, fCsMismatch := !checksumGood r, fIsStatus := true, fAck := true,
          fDevError := false, code := 0, done := true, phase := .idle }) ∧
  (∀ (a b c : Byte) (tail : List Byte) (s : State), s.phase = .check → c ≠ 0 →
    ∃ r v o, r = a :: b :: 0xFF :: c :: tail ∧ v = sum16 (summedPart r) ∧ o = some (hi8 v, lo8 v) ∧
      exec (.rspStatusError a b c tail) s =
        .next { s with
          csAcc := v, csOut := o, fCsMismatch := !checksumGood r, fIsStatus := true, fAck := false,
          fDevError := true, code := c, done := true, phase := .idle }) ∧
  (∀ (r : List Byte) (s : State), s.phase = .check → (Instr.rspData r).wellFormed = true →
    exec (.rspData r) s =
      .next { s with
        csAcc := if r.length < 2 then 0 else sum16 (summedPart r)
        csOut := if r.length < 2 then s.csOut else some (hi8 (sum16 (summedPart r)), lo8 (sum16 (summedPart r)))
        fCsMismatch := !checksumGood r, fIsStatus := false, fAck := false, fDevError := false, code := 0
        done := true, phase := .idle })

/-- R13, U5, R46 (the model's faults, log entry 7): a read of a byte that holds no value, or lies outside its buffer, is an
error with its own name; where such a byte is among the response or the request data, the operations that read it stop with
a fault; and they stop with a fault in no other case, naming such a byte. -/
def Obligations.MissingBytesAreFaults : Prop :=
  ∀ s : State,
    (∀ sp a, a < sp.size → (s.buffer sp).read a = none → readByte sp a s = .error (.noValue sp a)) ∧
    (∀ sp a, sp.size ≤ a → readByte sp a s = .error (.outsideBuffer sp a)) ∧
    (∀ a, a < s.rxLen → s.rx.read a = none ∨ 100 ≤ a →
      ∃ f, exec .verifyChecksum s = .fault f ∧ exec .isError s = .fault f ∧ exec .rspFields s = .fault f) ∧
    (∀ a, a < s.reqDlen → s.req.read a = none → s.reqKind = 0x40 ∨ s.reqKind = 0xC0 → s.reqDlen ≤ 16 →
      ∃ f, exec .encode s = .fault f) ∧
    (∀ f, exec .verifyChecksum s = .fault f ∨ exec .isError s = .fault f ∨ exec .rspFields s = .fault f →
      ∃ a, a < s.rxLen ∧
        (f = .noValue .rx a ∧ a < 100 ∧ s.rx.read a = none ∨ f = .outsideBuffer .rx a ∧ 100 ≤ a)) ∧
    (∀ f, exec .encode s = .fault f → ∃ a, a < s.reqDlen ∧ f = .noValue .req a ∧ s.req.read a = none)

/-- R146, R116: what the step does with a response in CHECK is VERIFY_CHECKSUM and IS_ERROR, in either order, and then
completion. -/
def Obligations.ChecksRunInEitherOrder : Prop :=
  ∀ (s : State) (r : List Byte) (i : Instr), s.phase = .check → response s = .ok r → decodeResponse r = .ok i →
    ∃ t, execAll [.verifyChecksum, .isError] s = .next t ∧ execAll [.isError, .verifyChecksum] s = .next t ∧
      exec i s = .next { t with done := true, phase := .idle }

/-- R64, R115: bytes 0 and 1 of a response are read by no rule but the sum. Its class does not depend on them, and the verdict
of VERIFY_CHECKSUM depends only on their sum with the rest. -/
def Obligations.HeaderBytesAreOnlySummed : Prop :=
  ∀ (a b a' b' : Byte) (rest : List Byte),
    classify (a :: b :: rest) = classify (a' :: b' :: rest) ∧
    (2 ≤ rest.length → a.toNat + b.toNat = a'.toNat + b'.toNat →
      checksumGood (a :: b :: rest) = checksumGood (a' :: b' :: rest))

/-- R116: in phase CHECK with a response both checks always run, each writing its own flags from RX alone, whatever the other
finds; and all four combinations of `f_cs_mismatch` and `f_dev_error` come out of steps from states of the invariant. -/
def Obligations.ChecksumAndDeviceErrorAreIndependent : Prop :=
  (∀ s : State, Inv s → s.phase = .check → 0 < s.rxLen → (nextMoment s).reset = false →
    ∃ t, step s = .next t ∧ t.fCsMismatch = !checksumGood (bytesOf s.rx) ∧
      (t.fDevError = true ↔ ∃ a b c tail, bytesOf s.rx = a :: b :: 0xFF :: c :: tail ∧ c ≠ 0) ∧
      (t.fAck = true ↔ ∃ a b tail, bytesOf s.rx = a :: b :: 0xFF :: 0x00 :: tail) ∧
      (t.fIsStatus = true ↔ ∃ a b c tail, bytesOf s.rx = a :: b :: 0xFF :: c :: tail)) ∧
  (∀ mismatch devError : Bool, ∃ s t : State, Inv s ∧ s.phase = .check ∧ 0 < s.rxLen ∧
    (nextMoment s).reset = false ∧ step s = .next t ∧ t.fCsMismatch = mismatch ∧ t.fDevError = devError)

/-! ### Unit U3, the commands -/

/-- R134: acceptance clears every flag, `code`, `done` and `rx_len`, and with `rx_len` every byte of RX; nothing else. It is
the first thing every accepted command does, whatever comes of it. -/
def Obligations.AcceptanceClearsTheRecord : Prop :=
  ∀ s : State,
    acceptCommand s =
      { s with
        done := false, fNotConnected := false, fRefused := false, fIoError := false, fCsMismatch := false,
        fIsStatus := false, fAck := false, fDevError := false, code := 0, rxLen := 0, rx := [] } ∧
    ∀ c t, s.phase = .idle → exec (decodeCommand c) s = .next t →
      t.rxLen = 0 ∧ (∀ a, t.rx.read a = none) ∧ t.fIoError = false ∧ t.fCsMismatch = false ∧
      t.fIsStatus = false ∧ t.fAck = false ∧ t.fDevError = false ∧ t.code = 0

/-- R132: OPEN in phase IDLE. From UNOPENED the link opens and the gap is disarmed; else the command is refused with its flag
and nothing else changes. -/
def Obligations.OpenOpensOrIsRefused : Prop :=
  ∀ s : State, s.phase = .idle →
    (s.link = .unopened →
      exec .openLink s = .next { acceptCommand s with link := .opened, gapArmed := false, done := true }) ∧
    (s.link ≠ .unopened → exec .openLink s = .next { acceptCommand s with fRefused := true, done := true })

/-- R133: CLOSE in phase IDLE. From OPEN the link closes; else NotConnected, and the link stays. -/
def Obligations.CloseClosesOrIsNotConnected : Prop :=
  ∀ s : State, s.phase = .idle →
    (s.link = .opened → exec .closeLink s = .next { acceptCommand s with link := .closed, done := true }) ∧
    (s.link ≠ .opened → exec .closeLink s = .next { acceptCommand s with fNotConnected := true, done := true })

/-- R135: TRANSFER at acceptance. NotConnected comes before Refused; in both the record is cleared, its flag and `done` are
set, and nothing else changes. -/
def Obligations.TransferFailsAtAcceptance : Prop :=
  ∀ (kind obj : Byte) (dlen : BitVec 5) (data : Vector Byte 16) (s : State), s.phase = .idle →
    (s.link ≠ .opened →
      exec (.transfer kind obj dlen data) s = .next { acceptCommand s with fNotConnected := true, done := true }) ∧
    (s.link = .opened → (kind ≠ 0x40 ∧ kind ≠ 0xC0) ∨ 16 < dlen.toNat →
      exec (.transfer kind obj dlen data) s = .next { acceptCommand s with fRefused := true, done := true })

/-- R136: a legal TRANSFER on an open link latches its arguments with node 0, encodes them into TX, and goes to GAP; the
gap timer, the wire and the link are left alone. -/
def Obligations.TransferIsLatchedAndEncoded : Prop :=
  ∀ (kind obj : Byte) (dlen : BitVec 5) (data : Vector Byte 16) (s : State), s.phase = .idle → s.link = .opened →
    kind = 0x40 ∨ kind = 0xC0 → dlen.toNat ≤ 16 →
    ∃ bs sum, bs = data.toList.take dlen.toNat ∧ sum = sum16 (requestBody kind 0 obj bs) ∧
      exec (.transfer kind obj dlen data) s =
        .next { acceptCommand s with
          reqKind := kind, reqNode := 0, reqObj := obj, reqDlen := dlen.toNat, req := cellsFrom 0 bs
          csAcc := sum, csOut := some (hi8 sum, lo8 sum)
          tx := cellsFrom 0 (encodeTelegram kind 0 obj bs), txLen := 5 + dlen.toNat, phase := .gap }

/-- R101 (with R135, R136): QUERY in phase IDLE, in all its cases. -/
def Obligations.QueryIsATransferOfItsKind : Prop :=
  ∀ (obj : Byte) (data : List Byte) (s : State), s.phase = .idle →
    (s.link ≠ .opened →
      exec (.query obj data) s = .next { acceptCommand s with fNotConnected := true, done := true }) ∧
    (s.link = .opened → 16 < data.length →
      exec (.query obj data) s = .next { acceptCommand s with fRefused := true, done := true }) ∧
    (s.link = .opened → data.length ≤ 16 →
      ∃ sum, sum = sum16 (requestBody 0x40 0 obj data) ∧
      exec (.query obj data) s =
        .next { acceptCommand s with
          reqKind := 0x40, reqNode := 0, reqObj := obj, reqDlen := data.length, req := cellsFrom 0 data
          csAcc := sum, csOut := some (hi8 sum, lo8 sum)
          tx := cellsFrom 0 (encodeTelegram 0x40 0 obj data), txLen := 5 + data.length, phase := .gap })

/-- R102 (with R135, R136): SEND in phase IDLE, in all its cases. -/
def Obligations.SendIsATransferOfItsKind : Prop :=
  ∀ (obj : Byte) (data : List Byte) (s : State), s.phase = .idle →
    (s.link ≠ .opened →
      exec (.send obj data) s = .next { acceptCommand s with fNotConnected := true, done := true }) ∧
    (s.link = .opened → 16 < data.length →
      exec (.send obj data) s = .next { acceptCommand s with fRefused := true, done := true }) ∧
    (s.link = .opened → data.length ≤ 16 →
      ∃ sum, sum = sum16 (requestBody 0xC0 0 obj data) ∧
      exec (.send obj data) s =
        .next { acceptCommand s with
          reqKind := 0xC0, reqNode := 0, reqObj := obj, reqDlen := data.length, req := cellsFrom 0 data
          csAcc := sum, csOut := some (hi8 sum, lo8 sum)
          tx := cellsFrom 0 (encodeTelegram 0xC0 0 obj data), txLen := 5 + data.length, phase := .gap })

/-- R28, R134: outside phase IDLE a command is not accepted: it changes nothing. Outside phase CHECK no response is being
checked: a response class changes nothing either (the model's, log entry 8). -/
def Obligations.OutOfPhaseNothingHappens : Prop :=
  (∀ (c : HostCommand) (s : State), s.phase ≠ .idle → exec (decodeCommand c) s = .next s) ∧
  (∀ (obj : Byte) (data : List Byte) (s : State), s.phase ≠ .idle →
    exec (.query obj data) s = .next s ∧ exec (.send obj data) s = .next s) ∧
  (∀ (r : List Byte) (i : Instr) (s : State), s.phase ≠ .check → decodeResponse r = .ok i → exec i s = .next s)

/-- R51, R150: what the host presents while the block is busy has no effect on any step: a step in a state that differs only in
the command presented in the next moment does the same. -/
def Obligations.CommandWhileBusyHasNoEffect : Prop :=
  ∀ (s : State) (m : Moment) (rest : List Moment) (c : Option HostCommand), s.phase ≠ .idle →
    step { s with moments := m :: rest } = step { s with moments := { m with command := c } :: rest }

/-! ### Unit U3, the phases -/

/-- R138: in GAP nothing is transmitted or stored; the framer goes to TX, with `tx_idx = 0`, exactly when the gap is not armed
or `gap_timer` has reached `T_GAP`, and waits otherwise. That a tick of the same moment counts before the framer looks, and that
it goes at the first moment it may, is the model's (log entry 2). -/
def Obligations.GapIsWaitedOut : Prop :=
  ∀ s : State, s.phase = .gap → (nextMoment s).reset = false →
    ∃ t, step s = .next t ∧ t.rx = s.rx ∧ t.rxLen = s.rxLen ∧ t.wireOut = s.wireOut ∧
      t.gapTimer = (if (nextMoment s).tick then min (s.gapTimer + 1) Config.gapTicks else s.gapTimer) ∧
      (s.gapArmed = false ∨ Config.gapTicks ≤ t.gapTimer → t.phase = .tx ∧ t.txIdx = 0) ∧
      (s.gapArmed = true ∧ t.gapTimer < Config.gapTicks → t.phase = .gap ∧ t.txIdx = s.txIdx)

/-- R140, R143: in TX, `tx_ready` without `tx_fail` hands `TX[tx_idx]` to the wire and advances `tx_idx`; with the last byte
the timers are cleared, the gap is armed and the read begins; before it the framer stays in TX. With neither signal it stays
and hands nothing over. Either way a byte received in the moment is stored while RX has room, and every other register is left
alone. That the clearing wins over a tick of the same moment, and that a byte received at the last hand-over still counts for
TX, is the model's (log entry 2). -/
def Obligations.ReadyHandsOverOneByte : Prop :=
  ∀ s : State, s.phase = .tx → (nextMoment s).reset = false → (nextMoment s).txFail = false →
    ∃ r gap, r = receive (nextMoment s).received (dropMoment s) ∧
      gap = (if (nextMoment s).tick then min (s.gapTimer + 1) Config.gapTicks else s.gapTimer) ∧
      (∀ b, (nextMoment s).received = some b →
        r.rxLen = (if s.rxLen < 100 then s.rxLen + 1 else s.rxLen) ∧
        r.rx = (if s.rxLen < 100 then s.rx.write s.rxLen b else s.rx)) ∧
      ((nextMoment s).received = none → r = dropMoment s) ∧
      (∀ b, (nextMoment s).txReady = true → readByte .tx s.txIdx s = .ok b →
        (s.txIdx + 1 = s.txLen →
          step s = .next { dropMoment s with
            rx := r.rx, rxLen := r.rxLen, wireOut := s.wireOut ++ [b], txIdx := s.txIdx + 1, gapTimer := 0
            gapArmed := true, rxTimer := 0, phase := .rx }) ∧
        (s.txIdx + 1 ≠ s.txLen →
          step s = .next { dropMoment s with
            rx := r.rx, rxLen := r.rxLen, wireOut := s.wireOut ++ [b], txIdx := s.txIdx + 1, gapTimer := gap })) ∧
      ((nextMoment s).txReady = false →
        step s = .next { dropMoment s with rx := r.rx, rxLen := r.rxLen, gapTimer := gap })

/-- R141: in TX, `tx_fail` (whatever `tx_ready` says) ends the command with IoError: nothing more is sent, bytes stored are
discarded, the gap timer restarts, armed; every other register stays. That the restart wins over a tick of the same moment is
the model's (log entry 2). -/
def Obligations.FailedWriteIsIoError : Prop :=
  ∀ s : State, s.phase = .tx → (nextMoment s).reset = false → (nextMoment s).txFail = true →
    step s =
      .next { dropMoment s with
        fIoError := true, rxLen := 0, rx := [], gapTimer := 0, gapArmed := true, done := true, phase := .idle }

/-- R143, R148: a received byte is stored at `RX[rx_len]` and counted in phases TX and RX while RX has room, and dropped without
a trace otherwise. -/
def Obligations.ReceivedByteIsStoredOrDropped : Prop :=
  ∀ (b : Byte) (s : State),
    ((s.phase = .tx ∨ s.phase = .rx) ∧ s.rxLen < 100 →
      ∃ m, receiveByte b s = { s with rx := m, rxLen := s.rxLen + 1 } ∧ m.read s.rxLen = some b ∧
        (∀ a, a ≠ s.rxLen → m.read a = s.rx.read a) ∧ (s.rx.wf → m.wf)) ∧
    (¬ ((s.phase = .tx ∨ s.phase = .rx) ∧ s.rxLen < 100) → receiveByte b s = s)

/-- R142, R144: a step in RX stores a received byte first, then counts the tick, and ends the read exactly when 100 bytes are
there or `rx_timer` is `T_TIMEOUT`; nothing else ends it. Only RX, `rx_len`, the timers and the phase can change: the flags,
`code`, the request, TX, `link` and the wire are left alone. -/
def Obligations.ReadEndsByLengthOrTimeout : Prop :=
  ∀ s : State, s.phase = .rx → (nextMoment s).reset = false →
    ∃ t, step s = .next t ∧
      t = { dropMoment s with
        rx := t.rx, rxLen := t.rxLen, rxTimer := t.rxTimer, gapTimer := t.gapTimer, phase := t.phase } ∧
      t.done = s.done ∧ t.fNotConnected = s.fNotConnected ∧ t.fRefused = s.fRefused ∧ t.fIoError = s.fIoError ∧
      t.fCsMismatch = s.fCsMismatch ∧ t.fIsStatus = s.fIsStatus ∧ t.fAck = s.fAck ∧ t.fDevError = s.fDevError ∧
      t.code = s.code ∧ t.wireOut = s.wireOut ∧
      t.gapTimer = (if (nextMoment s).tick then min (s.gapTimer + 1) Config.gapTicks else s.gapTimer) ∧
      t.rx = (receive (nextMoment s).received s).rx ∧ t.rxLen = (receive (nextMoment s).received s).rxLen ∧
      t.rxTimer = (if (nextMoment s).tick ∧ t.rxLen ≠ 100 ∧ s.rxTimer ≠ Config.timeoutTicks then s.rxTimer + 1
        else s.rxTimer) ∧
      (t.rxLen = 100 ∨ t.rxTimer = Config.timeoutTicks → t.phase = .check) ∧
      (t.rxLen ≠ 100 ∧ t.rxTimer ≠ Config.timeoutTicks → t.phase = .rx)

/-- R145: in CHECK with nothing received the command ends with IoError and no decoder flag is written. -/
def Obligations.EmptyReadIsIoError : Prop :=
  ∀ s : State, s.phase = .check → s.rxLen = 0 → (nextMoment s).reset = false →
    step s =
      .next { dropMoment s with
        fIoError := true, done := true, phase := .idle
        gapTimer := if (nextMoment s).tick then min (s.gapTimer + 1) Config.gapTicks else s.gapTimer }

/-- R19, R32, R202: a tick advances `gap_timer` in every phase up to `T_GAP` and not past it, and `rx_timer` only in phase RX;
it changes no other register; and `T_TIMEOUT > T_GAP`. `T_GAP` is 50 ms counted in ticks of `(tickUnits + 1) / (tickParts + 1)`
ms, the fraction rounded up; `T_TIMEOUT` ticks last longer than 50 ms, and are more than `T_GAP` in ticks where the tick divides
50 ms, else as many at least (the model's reading, log entry 3). -/
def Obligations.TicksAdvanceTheTimers : Prop :=
  50 * (Config.tickParts + 1) < Config.timeoutTicks * (Config.tickUnits + 1) ∧
  Config.gapTicks ≤ Config.timeoutTicks ∧
  (Config.gapTicks * (Config.tickUnits + 1) = 50 * (Config.tickParts + 1) → Config.gapTicks < Config.timeoutTicks) ∧
  0 < Config.gapTicks ∧
  (∀ n : Nat, Config.gapTicks ≤ n ↔ 50 * (Config.tickParts + 1) ≤ n * (Config.tickUnits + 1)) ∧
  ∀ s : State, ∃ g r, tickTimers s = { s with gapTimer := g, rxTimer := r } ∧
    (s.gapTimer < Config.gapTicks → g = s.gapTimer + 1) ∧ (s.gapTimer = Config.gapTicks → g = Config.gapTicks) ∧
    (s.phase ≠ .rx → r = s.rxTimer) ∧
    (s.phase = .rx → s.rxLen ≠ 100 → s.rxTimer < Config.timeoutTicks → r = s.rxTimer + 1)

/-! ### Results -/

/-- R16, R195: the outcome is defined only when `done = 1`, and is read from the flags in the order NotConnected, Refused,
IoError, ChecksumMismatch, DeviceError, Ok. -/
def Obligations.OutcomeFollowsThePriority : Prop :=
  ∀ s : State,
    (s.done = false → outcome s = none) ∧
    (s.done = true → s.fNotConnected = true → outcome s = some .notConnected) ∧
    (s.done = true → s.fNotConnected = false → s.fRefused = true → outcome s = some .refused) ∧
    (s.done = true → s.fNotConnected = false → s.fRefused = false → s.fIoError = true → outcome s = some .ioError) ∧
    (s.done = true → s.fNotConnected = false → s.fRefused = false → s.fIoError = false → s.fCsMismatch = true →
      outcome s = some .checksumMismatch) ∧
    (s.done = true → s.fNotConnected = false → s.fRefused = false → s.fIoError = false → s.fCsMismatch = false →
      s.fDevError = true → outcome s = some (.deviceError s.code)) ∧
    (s.done = true → s.fNotConnected = false → s.fRefused = false → s.fIoError = false → s.fCsMismatch = false →
      s.fDevError = false → outcome s = some .ok)

/-- R15: the relations between the flags that hold whenever `done = 1`, in every state that meets the invariant. -/
def Obligations.FlagsAreConsistentWhenDone : Prop :=
  ∀ s : State, Inv s → s.done = true →
    ¬ (s.fAck = true ∧ s.fDevError = true) ∧
    s.fIsStatus = (s.fAck || s.fDevError) ∧
    (s.fNotConnected = true ∨ s.fRefused = true →
      s.fIoError = false ∧ s.fCsMismatch = false ∧ s.fIsStatus = false ∧ s.fAck = false ∧ s.fDevError = false ∧
      s.code = 0 ∧ ¬ (s.fNotConnected = true ∧ s.fRefused = true) ∧ s.rxLen = 0) ∧
    (s.fIoError = true →
      s.rxLen = 0 ∧ s.fCsMismatch = false ∧ s.fIsStatus = false ∧ s.fAck = false ∧ s.fDevError = false)

/-- R49: from completion to the next acceptance the results are stable: with no command and no reset in the moment, a step in
IDLE leaves `done`, the flags, `code`, `rx_len` and RX as they are (and every other register but `gap_timer`). -/
def Obligations.ResultsStayUntilTheNextCommand : Prop :=
  ∀ s : State, s.phase = .idle → (nextMoment s).reset = false → (nextMoment s).command = none →
    step s =
      .next { dropMoment s with
        gapTimer := if (nextMoment s).tick then min (s.gapTimer + 1) Config.gapTicks else s.gapTimer }

/-- R13, R29, R49: a host read of `RX[i]` gives the byte stored there when `done = 1` and `i < rx_len`, and is a fault in every
other case; the result registers (the flags, `code`, `rx_len`) and the outcome give their value when `done = 1`, and are a
fault while `done = 0` (log entry 7). -/
def Obligations.HostReadsOnlyWhatHasAValue : Prop :=
  ∀ (s : State) (i : Nat),
    (s.done = true →
      hostRxLen s = .ok s.rxLen ∧ hostCode s = .ok s.code ∧ (∀ flag : State → Bool, hostRead flag s = .ok (flag s)) ∧
      ∃ o, outcome s = some o ∧ hostOutcome s = .ok o) ∧
    (s.done = false → ∀ flag : State → Bool, hostRead flag s = .error .resultNotReady) ∧
    (s.done = false → hostRx i s = .error .resultNotReady ∧ hostRxLen s = .error .resultNotReady ∧
      hostCode s = .error .resultNotReady ∧ hostOutcome s = .error .resultNotReady) ∧
    (s.done = true → s.rxLen ≤ i → hostRx i s = .error (.noValue .rx i)) ∧
    (Inv s → s.done = true → i < s.rxLen →
      ∃ b, (bytesOf s.rx)[i]? = some b ∧ hostRx i s = .ok b)

/-! ### Whole-machine rules -/

/-- The reset state meets the invariant. -/
def Obligations.ResetMeetsTheInvariant : Prop := Inv State.reset

/-- Every step from a state that meets the invariant, on any signals, gives a state that meets it. -/
def Obligations.EveryStepKeepsTheInvariant : Prop :=
  ∀ s t : State, Inv s → step s = .next t → Inv t

/-- The block never stops: from a state that meets the invariant every step, on any signals, answers a next state, so no fault
and no refusal is ever met however long it runs. -/
def Obligations.TheBlockNeverStops : Prop :=
  ∀ (s : State) (n : Nat), Inv s → RunsOn n s

/-- No step is ever refused, in any state. -/
def Obligations.NoStepIsRefused : Prop :=
  ∀ (s : State) (r : Refusal), step s ≠ .refused r

/-- R152: the phase changes only as the table says, each change under its condition. -/
def Obligations.PhaseChangesAsTheTableSays : Prop :=
  ∀ s t : State, step s = .next t → (nextMoment s).reset = false → t.phase ≠ s.phase →
    (s.phase = .idle ∧ t.phase = .gap ∧ s.link = .opened ∧
      ∃ kind obj dlen data, (nextMoment s).command = some (.transfer kind obj dlen data) ∧
        (kind = 0x40 ∨ kind = 0xC0) ∧ dlen.toNat ≤ 16) ∨
    (s.phase = .gap ∧ t.phase = .tx ∧ (s.gapArmed = false ∨ Config.gapTicks ≤ t.gapTimer)) ∨
    (s.phase = .tx ∧ t.phase = .rx ∧ t.txIdx = s.txLen ∧ (nextMoment s).txReady = true ∧
      (nextMoment s).txFail = false) ∨
    (s.phase = .tx ∧ t.phase = .idle ∧ t.done = true ∧ t.fIoError = true ∧ (nextMoment s).txFail = true) ∨
    (s.phase = .rx ∧ t.phase = .check ∧ (t.rxLen = 100 ∨ t.rxTimer = Config.timeoutTicks)) ∨
    (s.phase = .check ∧ t.phase = .idle ∧ t.done = true ∧ (s.rxLen = 0 → t.fIoError = true))

/-- R17: `link` is written only by OPEN, from UNOPENED to OPEN, by CLOSE, from OPEN to CLOSED, and by reset; nothing but reset
leaves CLOSED. -/
def Obligations.LinkChangesOnlyByOpenCloseReset : Prop :=
  ∀ s t : State, step s = .next t → t.link ≠ s.link →
    ((nextMoment s).reset = true ∧ t.link = .unopened) ∨
    (s.phase = .idle ∧ (nextMoment s).command = some .openLink ∧ s.link = .unopened ∧ t.link = .opened) ∨
    (s.phase = .idle ∧ (nextMoment s).command = some .closeLink ∧ s.link = .opened ∧ t.link = .closed)

/-- R30: a byte reaches the wire only in phase TX, on `tx_ready` without `tx_fail`, one a step, and it is `TX[tx_idx]`; what is
on the wire is never taken back, by a reset neither. -/
def Obligations.WireGrowsOnlyByHandOver : Prop :=
  ∀ s t : State, step s = .next t → t.wireOut ≠ s.wireOut →
    s.phase = .tx ∧ (nextMoment s).reset = false ∧ (nextMoment s).txReady = true ∧ (nextMoment s).txFail = false ∧
    ∃ b, readByte .tx s.txIdx s = .ok b ∧ t.wireOut = s.wireOut ++ [b]

/-- R11, R12: the request descriptor and TX are written only by the acceptance of a legal TRANSFER on an open link and by reset;
in every other step, in IDLE with another command or a failing TRANSFER too, they stay. -/
def Obligations.RequestIsFixedInFlight : Prop :=
  ∀ s t : State, step s = .next t → (nextMoment s).reset = false →
    ¬ (s.phase = .idle ∧ s.link = .opened ∧ ∃ kind obj dlen data,
      (nextMoment s).command = some (.transfer kind obj dlen data) ∧ (kind = 0x40 ∨ kind = 0xC0) ∧ dlen.toNat ≤ 16) →
    t.reqKind = s.reqKind ∧ t.reqNode = s.reqNode ∧ t.reqObj = s.reqObj ∧ t.reqDlen = s.reqDlen ∧ t.req = s.req ∧
    t.tx = s.tx ∧ t.txLen = s.txLen

/-! ### A transfer from its parts -/

/-- R140: on a transmitter that takes each byte, phase TX puts exactly the encoded request on the wire, in as many steps as it
has bytes, and the read begins. -/
def Obligations.WholeTelegramGoesOut : Prop :=
  ∀ (s : State) (rest : List Moment), Inv s → s.phase = .tx → s.txIdx = 0 →
    s.moments = List.replicate s.txLen readyMoment ++ rest →
    ∃ t, Host.Core.run core s.txLen s = .next t ∧ t.phase = .rx ∧ t.moments = rest ∧
      t.wireOut = s.wireOut ++ encodeTelegram s.reqKind 0 s.reqObj (bytesOf s.req) ∧
      t.rx = s.rx ∧ t.rxLen = s.rxLen ∧ t.rxTimer = 0

/-- R143, R144: bytes that arrive in phase RX, up to the size of RX, are stored in order behind those already there, and the
read ends at once with the hundredth. -/
def Obligations.ArrivingBytesAreKeptInOrder : Prop :=
  ∀ (s : State) (w : List Byte) (rest : List Moment), Inv s → s.phase = .rx → s.rxTimer ≠ Config.timeoutTicks →
    w ≠ [] → s.rxLen + w.length ≤ 100 → s.moments = w.map byteMoment ++ rest →
    ∃ t, Host.Core.run core w.length s = .next t ∧ t.moments = rest ∧ response t = .ok (bytesOf s.rx ++ w) ∧
      t.phase = (if s.rxLen + w.length = 100 then .check else .rx) ∧ t.wireOut = s.wireOut

/-- R149: TRANSFER as one function, on the schedule in which the transmitter takes every byte, the response `w` of fewer than
100 bytes arrives in phase RX and the read then times out. The wire carries the encoded request and nothing else; RX holds `w`;
the outcome is IoError for no bytes, else ChecksumMismatch, DeviceError or Ok as the decoder's functions say. -/
def Obligations.TransferAsOneFunction : Prop :=
  ∀ (s : State) (kind obj : Byte) (dlen : BitVec 5) (data : Vector Byte 16) (w : List Byte),
    Inv s → s.phase = .idle → s.link = .opened → s.gapArmed = false ∨ s.gapTimer = Config.gapTicks →
    kind = 0x40 ∨ kind = 0xC0 → dlen.toNat ≤ 16 → w.length < 100 →
    s.moments = commandMoment (.transfer kind obj dlen data) :: .quiet ::
      (List.replicate (5 + dlen.toNat) readyMoment ++ (w.map byteMoment ++
        (List.replicate Config.timeoutTicks tickMoment ++ [.quiet]))) →
    ∃ t, Host.Core.run core s.moments.length s = .next t ∧ Inv t ∧ t.phase = .idle ∧ t.done = true ∧
      t.link = .opened ∧ t.moments = [] ∧
      t.wireOut = s.wireOut ++ encodeTelegram kind 0 obj (data.toList.take dlen.toNat) ∧
      response t = .ok w ∧
      outcome t = some
        (if w = [] then .ioError
         else if checksumGood w = false then .checksumMismatch
         else match classify w with
           | .deviceError c => .deviceError c
           | .ack => .ok
           | .notStatus => .ok)
end

