-- ==== Sys2Proof/Laws/Memory.lean ====
section
/-!
SUPPORT. What the memory operations do: read after write, the canonical form kept, cells of a byte list.
-/

namespace Sys2Proof.Machine

@[simp] theorem memory_read_nil (a : Nat) : Memory.read [] a = none := rfl

@[simp] theorem memory_read_write_same (m : Memory) (a : Nat) (b : Byte) : (m.write a b).read a = some b := by
  induction m with
  | nil => simp [Memory.write, Memory.read]
  | cons c m ih =>
    obtain ⟨k, v⟩ := c
    unfold Memory.write
    split_ifs with h1 h2 <;> simp_all [Memory.read]

theorem memory_read_write_other (m : Memory) {a a' : Nat} (b : Byte) (h : a' ≠ a) :
    (m.write a b).read a' = m.read a' := by
  induction m with
  | nil => simp [Memory.write, Memory.read, h]
  | cons c m ih =>
    obtain ⟨k, v⟩ := c
    unfold Memory.write
    split_ifs with h1 h2
    · simp [Memory.read, h]
    · subst h2; simp [Memory.read, h]
    · simp only [Memory.read, ih]

theorem memory_write_keys (m : Memory) (a : Nat) (b : Byte) (k : Nat) :
    k ∈ (m.write a b).map Prod.fst ↔ k = a ∨ k ∈ m.map Prod.fst := by
  induction m with
  | nil => simp [Memory.write]
  | cons c m ih =>
    obtain ⟨k', v⟩ := c
    unfold Memory.write
    split_ifs with h1 h2
    · simp
    · subst h2; simp
    · simp only [List.map_cons, List.mem_cons, ih]
      tauto

/-- A write keeps the canonical form. -/
theorem memory_write_wf {m : Memory} (a : Nat) (b : Byte) (h : m.wf) : (m.write a b).wf := by
  induction m with
  | nil => simp [Memory.write, Memory.wf]
  | cons c m ih =>
    obtain ⟨k, v⟩ := c
    simp only [Memory.wf, List.map_cons, List.pairwise_cons] at h
    unfold Memory.write
    split_ifs with h1 h2
    · simp only [Memory.wf, List.map_cons, List.pairwise_cons, List.mem_cons]
      refine ⟨?_, h.1, h.2⟩
      rintro x (rfl | hx)
      · exact h1
      · exact h1.trans (h.1 x hx)
    · subst h2; simpa [Memory.wf] using h
    · simp only [Memory.wf, List.map_cons, List.pairwise_cons]
      refine ⟨fun x hx => ?_, ih h.2⟩
      rcases (memory_write_keys m a b x).1 hx with rfl | hx
      · omega
      · exact h.1 x hx

/-- Writing past every listed address appends. -/
theorem memory_write_past (m : Memory) (a : Nat) (b : Byte) (h : ∀ k ∈ m.map Prod.fst, k < a) :
    m.write a b = m ++ [(a, b)] := by
  induction m with
  | nil => rfl
  | cons c m ih =>
    obtain ⟨k, v⟩ := c
    have hk : k < a := h k (by simp)
    have : ∀ k ∈ m.map Prod.fst, k < a := fun x hx => h x (by simp_all)
    simp [Memory.write, ih this, show ¬ a < k by omega, show a ≠ k by omega]

/-! ### Cells of a byte list -/

@[simp] theorem cellsFrom_nil (a : Nat) : cellsFrom a [] = [] := rfl

theorem cellsFrom_keys (a : Nat) (bs : List Byte) : (cellsFrom a bs).map Prod.fst = List.range' a bs.length := by
  induction bs generalizing a with
  | nil => rfl
  | cons b bs ih => simp [cellsFrom, ih, List.range'_succ]

@[simp] theorem cellsFrom_bytes (a : Nat) (bs : List Byte) : (cellsFrom a bs).map Prod.snd = bs := by
  induction bs generalizing a with
  | nil => rfl
  | cons b bs ih => simp [cellsFrom, ih]

theorem cellsFrom_append (a : Nat) (bs cs : List Byte) :
    cellsFrom a (bs ++ cs) = cellsFrom a bs ++ cellsFrom (a + bs.length) cs := by
  induction bs generalizing a with
  | nil => simp
  | cons b bs ih => simp [cellsFrom, ih, Nat.add_assoc, Nat.add_comm 1]

theorem cellsFrom_read (a i : Nat) (bs : List Byte) : (cellsFrom a bs).read (a + i) = bs[i]? := by
  induction bs generalizing a i with
  | nil => rfl
  | cons b bs ih =>
    cases i with
    | zero => simp [cellsFrom, Memory.read]
    | succ i =>
      have := ih (a + 1) i
      simp only [cellsFrom, Memory.read, show a + (i + 1) = a + 1 + i by omega, this]
      simp [show a + 1 + i ≠ a by omega]

theorem cellsFrom_wf (a : Nat) (bs : List Byte) : (cellsFrom a bs).wf := by
  simp [Memory.wf, cellsFrom_keys, List.pairwise_lt_range']

theorem cellsFrom_write_end (a : Nat) (bs : List Byte) (b : Byte) :
    (cellsFrom a bs).write (a + bs.length) b = cellsFrom a (bs ++ [b]) := by
  rw [memory_write_past, cellsFrom_append]
  · rfl
  · intro k hk
    rw [cellsFrom_keys] at hk
    have := List.mem_range'_1.1 hk
    omega

/-- A list of cells with keys `a, a+1, …` is the cells of its bytes. -/
theorem eq_cellsFrom_of_keys (m : Memory) (a : Nat) (h : m.map Prod.fst = List.range' a m.length) :
    m = cellsFrom a (m.map Prod.snd) := by
  induction m generalizing a with
  | nil => rfl
  | cons c m ih =>
    obtain ⟨k, v⟩ := c
    simp only [List.map_cons, List.length_cons, List.range'_succ, List.cons.injEq] at h
    obtain ⟨rfl, h⟩ := h
    simp only [List.map_cons, cellsFrom]
    rw [← ih _ h]

end Sys2Proof.Machine
end

