-- ==== Sys2Proof/Laws/Ops.lean ====
section
/-!
SUPPORT. One lemma per shared operation: what it does to the state, as an equation between states; what a run of reads gives.
-/

namespace Sys2Proof.Machine

/-! ### Buffers -/

@[simp] theorem withBuffer_req (s : State) (m : Memory) : s.withBuffer .req m = { s with req := m } := rfl
@[simp] theorem withBuffer_tx (s : State) (m : Memory) : s.withBuffer .tx m = { s with tx := m } := rfl
@[simp] theorem withBuffer_rx (s : State) (m : Memory) : s.withBuffer .rx m = { s with rx := m } := rfl
@[simp] theorem buffer_req (s : State) : s.buffer .req = s.req := rfl
@[simp] theorem buffer_tx (s : State) : s.buffer .tx = s.tx := rfl
@[simp] theorem buffer_rx (s : State) : s.buffer .rx = s.rx := rfl

@[simp] theorem buffer_withBuffer (s : State) (sp : Space) (m : Memory) : (s.withBuffer sp m).buffer sp = m := by
  cases sp <;> rfl

@[simp] theorem withBuffer_withBuffer (s : State) (sp : Space) (m m' : Memory) :
    (s.withBuffer sp m).withBuffer sp m' = s.withBuffer sp m' := by
  cases sp <;> rfl

@[simp] theorem withBuffer_self (s : State) (sp : Space) : s.withBuffer sp (s.buffer sp) = s := by
  cases sp <;> rfl

/-- A write to a buffer leaves the other buffers alone. -/
theorem buffer_withBuffer_other {sp sp' : Space} (h : sp' ≠ sp) (s : State) (m : Memory) :
    (s.withBuffer sp m).buffer sp' = s.buffer sp' := by
  cases sp <;> cases sp' <;> first | rfl | exact absurd rfl h

/-- Every buffer in its canonical form. -/
abbrev BuffersWf (s : State) : Prop := ∀ sp, (s.buffer sp).wf

theorem reset_buffersWf : BuffersWf State.reset := fun sp => by cases sp <;> exact List.Pairwise.nil

theorem withBuffer_buffersWf {s : State} {m : Memory} (h : BuffersWf s) (hm : m.wf) (sp : Space) :
    BuffersWf (s.withBuffer sp m) := by
  intro sp'
  by_cases e : sp' = sp
  · subst e; simpa using hm
  · rw [buffer_withBuffer_other e]; exact h sp'

theorem writeByte_buffersWf {s : State} (h : BuffersWf s) (sp : Space) (a : Nat) (b : Byte) :
    BuffersWf (writeByte sp a b s) := withBuffer_buffersWf h (memory_write_wf a b (h sp)) sp

theorem clearBuffer_buffersWf {s : State} (h : BuffersWf s) (sp : Space) : BuffersWf (clearBuffer sp s) :=
  withBuffer_buffersWf h List.Pairwise.nil sp

theorem writeBytes_buffersWf {s : State} (h : BuffersWf s) (sp : Space) (a : Nat) (bs : List Byte) :
    BuffersWf (writeBytes sp a bs s) := by
  induction bs generalizing a s with
  | nil => exact h
  | cons b bs ih => exact ih (writeByte_buffersWf h sp a b) (a + 1)

/-- A run of writes past what the buffer holds appends the bytes' cells. -/
theorem writeBytes_cells (sp : Space) (pre bs : List Byte) (s : State) (h : s.buffer sp = cellsFrom 0 pre) :
    writeBytes sp pre.length bs s = s.withBuffer sp (cellsFrom 0 (pre ++ bs)) := by
  induction bs generalizing pre s with
  | nil => simp [writeBytes, ← h]
  | cons b bs ih =>
    have e : (s.buffer sp).write pre.length b = cellsFrom 0 (pre ++ [b]) := by
      rw [h]; simpa using cellsFrom_write_end 0 pre b
    have := ih (pre ++ [b]) (writeByte sp pre.length b s) (by simp [writeByte, e])
    simp only [List.length_append, List.length_singleton] at this
    rw [writeBytes, this]
    simp [writeByte]

/-- Writing `bs` into an emptied buffer. -/
@[simp] theorem writeBytes_cleared (sp : Space) (bs : List Byte) (s : State) :
    writeBytes sp 0 bs (clearBuffer sp s) = s.withBuffer sp (cellsFrom 0 bs) := by
  have := writeBytes_cells sp [] bs (clearBuffer sp s) (by simp [clearBuffer])
  simpa [clearBuffer] using this

/-- Reading back a filled stretch that lies in the buffer. -/
theorem readBytes_of_read (sp : Space) (a : Nat) (bs : List Byte) (s : State)
    (hsize : a + bs.length ≤ sp.size) (h : ∀ i, (hi : i < bs.length) → (s.buffer sp).read (a + i) = some bs[i]) :
    readBytes sp a bs.length s = .ok bs := by
  induction bs generalizing a with
  | nil => rfl
  | cons b bs ih =>
    simp only [List.length_cons] at hsize
    have h0 := h 0 (by simp)
    simp only [Nat.add_zero, List.getElem_cons_zero] at h0
    have hr : readByte sp a s = .ok b := by simp [readByte, h0, show a < sp.size by omega]
    have := ih (a + 1) (by omega) (fun i hi => by
      have := h (i + 1) (by simpa using hi)
      simpa [Nat.add_assoc, Nat.add_comm 1] using this)
    simp [readBytes, hr, this]

theorem readBytes_cells (sp : Space) (bs : List Byte) (s : State) (hsize : bs.length ≤ sp.size)
    (h : s.buffer sp = cellsFrom 0 bs) : readBytes sp 0 bs.length s = .ok bs := by
  refine readBytes_of_read sp 0 bs s (by omega) fun i hi => ?_
  rw [h, cellsFrom_read]
  simp [hi]

/-- A run of reads that succeeds gives as many bytes as were asked for. -/
theorem readBytes_length {sp : Space} {a n : Nat} {s : State} {bs : List Byte} (h : readBytes sp a n s = .ok bs) :
    bs.length = n := by
  induction n generalizing a bs with
  | zero => simp [readBytes] at h; simp [← h]
  | succ n ih =>
    simp only [readBytes] at h
    split at h
    · cases h
    · split at h
      · cases h
      · next hb => cases h; simp [ih hb]

/-- A run of reads that succeeds stays in the buffer. -/
theorem readBytes_in_buffer {sp : Space} {a n : Nat} {s : State} {bs : List Byte} (h : readBytes sp a n s = .ok bs)
    (hn : n ≠ 0) : a + n ≤ sp.size := by
  induction n generalizing a bs with
  | zero => exact absurd rfl hn
  | succ n ih =>
    simp only [readBytes] at h
    split at h
    · cases h
    · next b hb =>
      have ha : a < sp.size := by
        by_contra hc
        simp [readByte, hc] at hb
      split at h
      · cases h
      · next bs' hb' =>
        rcases Nat.eq_zero_or_pos n with rfl | hpos
        · omega
        · have := ih hb' (by omega); omega

/-- Reads see only their buffer. -/
theorem readByte_congr {sp : Space} {s s' : State} (h : s.buffer sp = s'.buffer sp) (a : Nat) :
    readByte sp a s = readByte sp a s' := by
  simp [readByte, h]

theorem readBytes_congr {sp : Space} {s s' : State} (h : s.buffer sp = s'.buffer sp) (a n : Nat) :
    readBytes sp a n s = readBytes sp a n s' := by
  induction n generalizing a with
  | zero => rfl
  | succ n ih => simp [readBytes, readByte_congr h a, ih]

/-! ### Commands -/

theorem clearBuffer_rx (s : State) : clearBuffer .rx s = { s with rx := [] } := rfl

/-- Acceptance (R134). -/
theorem acceptCommand_eq (s : State) :
    acceptCommand s =
      { s with
        done := false, fNotConnected := false, fRefused := false, fIoError := false, fCsMismatch := false,
        fIsStatus := false, fAck := false, fDevError := false, code := 0, rxLen := 0, rx := [] } := rfl

/-- The latching of R136. -/
theorem latchRequest_eq (kind obj : Byte) (data : List Byte) (s : State) :
    latchRequest kind obj data s =
      { s with reqKind := kind, reqNode := 0, reqObj := obj, reqDlen := data.length, req := cellsFrom 0 data } := by
  simp [latchRequest, Config.nodeFixed]

/-! ### Unit U1 -/

theorem addAllToSum_eq (bs : List Byte) (s : State) :
    addAllToSum bs s = { s with csAcc := bs.foldl addByte s.csAcc } := by
  induction bs generalizing s with
  | nil => rfl
  | cons b bs ih => simp [addAllToSum, ih, addToSum]

/-- CS_CLEAR; CS_ADD …; CS_SPLIT leaves SUM16 in the accumulator and its bytes on the outputs (R92, R93). -/
theorem sumAndSplit_eq (bs : List Byte) (s : State) :
    sumAndSplit bs s = { s with csAcc := sum16 bs, csOut := some (hi8 (sum16 bs), lo8 (sum16 bs)) } := by
  simp [sumAndSplit, addAllToSum_eq, clearSum, splitSum, sum16]

end Sys2Proof.Machine
end

