-- ==== Sys2Proof/Laws/Telegram.lean ====
section
/-!
SUPPORT. Laws of the pure functions: SUM16 and its value, the split of a word, `verify_checksum` as an equation, the shape of
an encoded request and of its start delimiter.
-/

namespace Sys2Proof.Machine

/-! ### SUM16 -/

@[simp] theorem sum16_nil : sum16 [] = 0 := rfl

theorem sum16_append_one (bs : List Byte) (b : Byte) : sum16 (bs ++ [b]) = sum16 bs + zext16 b := by
  simp [sum16, addByte]

theorem foldl_addByte_toNat (bs : List Byte) (acc : Word) :
    (bs.foldl addByte acc).toNat = (acc.toNat + (bs.map BitVec.toNat).sum) % 65536 := by
  induction bs generalizing acc with
  | nil => simp; omega
  | cons b bs ih =>
    simp only [List.foldl_cons, ih, List.map_cons, List.sum_cons]
    simp [addByte, zext16, BitVec.toNat_add]
    omega

/-- SUM16 is the integer sum modulo 65536 (R92). -/
theorem sum16_toNat (bs : List Byte) : (sum16 bs).toNat = (bs.map BitVec.toNat).sum % 65536 := by
  simpa [sum16] using foldl_addByte_toNat bs 0

theorem byte_sum_le (bs : List Byte) : (bs.map BitVec.toNat).sum ≤ 255 * bs.length := by
  induction bs with
  | nil => simp
  | cons b bs ih =>
    have := b.isLt
    simp only [List.map_cons, List.sum_cons, List.length_cons]
    omega

/-! ### A word and its two bytes -/

@[simp] theorem be16_hi8_lo8 (v : Word) : be16 (hi8 v) (lo8 v) = v := by
  apply BitVec.eq_of_toNat_eq
  have := v.isLt
  simp only [be16, hi8, lo8, BitVec.toNat_append, BitVec.extractLsb'_toNat]
  rw [← Nat.shiftLeft_add_eq_or_of_lt (by omega)]
  omega

theorem be16_toNat (h l : Byte) : (be16 h l).toNat = h.toNat * 256 + l.toNat := by
  simp only [be16, BitVec.toNat_append]
  rw [← Nat.shiftLeft_add_eq_or_of_lt l.isLt]
  omega

theorem hi8_toNat (v : Word) : (hi8 v).toNat = v.toNat / 256 := by
  have := v.isLt
  simp [hi8, Nat.shiftRight_eq_div_pow]
  omega

theorem lo8_toNat (v : Word) : (lo8 v).toNat = v.toNat % 256 := by
  simp [lo8]

/-! ### verify_checksum -/

theorem eq_summedPart_append {r : List Byte} (h : 2 ≤ r.length) :
    ∃ hi lo, r = summedPart r ++ [hi, lo] ∧ carriedChecksum r = some (be16 hi lo) := by
  have hl : (r.drop (r.length - 2)).length = 2 := by simp; omega
  obtain ⟨hi, lo, e⟩ := List.length_eq_two.1 hl
  refine ⟨hi, lo, ?_, by simp [carriedChecksum, e]⟩
  rw [summedPart, ← e, List.take_append_drop]

@[simp] theorem summedPart_append (bs : List Byte) (h l : Byte) : summedPart (bs ++ [h, l]) = bs := by
  simp [summedPart]

@[simp] theorem carriedChecksum_append (bs : List Byte) (h l : Byte) :
    carriedChecksum (bs ++ [h, l]) = some (be16 h l) := by
  simp [carriedChecksum]

/-- `verify_checksum` of a body and two bytes behind it (R110). -/
@[simp] theorem checksumGood_append (bs : List Byte) (h l : Byte) :
    checksumGood (bs ++ [h, l]) = decide (be16 h l = sum16 bs) := by
  simp only [checksumGood, carriedChecksum_append, summedPart_append]
  simp [beq_eq_decide]

theorem checksumGood_short {r : List Byte} (h : r.length < 2) : checksumGood r = false := by
  simp [checksumGood, h]

/-- A body with its own checksum behind it verifies (R95 (a)). -/
@[simp] theorem checksumGood_withChecksum (body : List Byte) : checksumGood (withChecksum body) = true := by
  simp [withChecksum]

/-! ### The request -/

@[simp] theorem requestBody_length (kind node obj : Byte) (data : List Byte) :
    (requestBody kind node obj data).length = 3 + data.length := by
  simp [requestBody]; omega

@[simp] theorem withChecksum_length (body : List Byte) : (withChecksum body).length = body.length + 2 := by
  simp [withChecksum]

@[simp] theorem encodeTelegram_length (kind node obj : Byte) (data : List Byte) :
    (encodeTelegram kind node obj data).length = 5 + data.length := by
  simp [encodeTelegram]; omega

theorem legalKind_iff (kind : Byte) : legalKind kind = true ↔ kind = Config.kindQuery ∨ kind = Config.kindSend := by
  simp [legalKind]

/-- The two nibbles of the start delimiter of a legal request (R62). -/
theorem startDelimiter_nibbles {kind : Byte} {n : Nat} (hk : legalKind kind = true) (hn : n ≤ 16) :
    delimiterHigh (startDelimiter kind n) = (if kind = Config.kindQuery then 0b0111#4 else 0b1111#4) ∧
      (delimiterLen (startDelimiter kind n)).toNat = lenField n := by
  rcases (legalKind_iff kind).1 hk with rfl | rfl <;> interval_cases n <;> decide

theorem lenField_le_imp {n : Nat} (h : lenField n ≤ 15) : n ≤ 16 := by
  unfold lenField at h
  split at h <;> omega

/-- A start delimiter is known from its two nibbles. -/
theorem eq_startDelimiter {sd : Byte} {n : Nat} (hl : (delimiterLen sd).toNat = lenField n) :
    (delimiterHigh sd = 0b0111#4 → sd = startDelimiter Config.kindQuery n) ∧
      (delimiterHigh sd = 0b1111#4 → sd = startDelimiter Config.kindSend n) := by
  have hn : n ≤ 16 := lenField_le_imp (by have := (delimiterLen sd).isLt; omega)
  revert hl
  interval_cases n <;> revert sd <;> decide

/-- Everything a request that decodes can be. -/
theorem decodeRequest_cases {t : List Byte} {i : Instr} (h : decodeRequest t = .ok i) :
    ∃ obj data hi lo, data.length ≤ 16 ∧
      (i = .query obj data ∧ t = requestBody Config.kindQuery Config.nodeFixed obj data ++ [hi, lo] ∨
       i = .send obj data ∧ t = requestBody Config.kindSend Config.nodeFixed obj data ++ [hi, lo]) := by
  match t, h with
  | sd :: node :: obj :: rest, h =>
    simp only [decodeRequest] at h
    split_ifs at h with h1 h2 h3 h4 h5
    all_goals
      simp only [ne_eq, not_not] at h2 h3
      obtain ⟨hi, lo, e, -⟩ := eq_summedPart_append (r := rest) (by omega)
      rw [show rest.take (rest.length - 2) = summedPart rest from rfl] at h h3
      have hn : (summedPart rest).length ≤ 16 := lenField_le_imp (by have := (delimiterLen sd).isLt; omega)
      refine ⟨obj, summedPart rest, hi, lo, hn, ?_⟩
      cases h
    · refine .inl ⟨rfl, ?_⟩
      rw [requestBody, ← (eq_startDelimiter h3).1 h4, ← h2]
      simp only [List.cons_append, ← e]
    · refine .inr ⟨rfl, ?_⟩
      rw [requestBody, ← (eq_startDelimiter h3).2 h5, ← h2]
      simp only [List.cons_append, ← e]

@[simp] theorem hi8_be16 (h l : Byte) : hi8 (be16 h l) = h := by
  apply BitVec.eq_of_toNat_eq
  rw [hi8_toNat, be16_toNat]
  omega

@[simp] theorem lo8_be16 (h l : Byte) : lo8 (be16 h l) = l := by
  apply BitVec.eq_of_toNat_eq
  rw [lo8_toNat, be16_toNat]
  omega

/-! ### Well-formed instructions, in numbers -/

theorem wellFormed_query (obj : Byte) (data : List Byte) :
    (Instr.query obj data).wellFormed = true ↔ data.length ≤ 16 := by
  simp only [Instr.wellFormed, decide_eq_true_eq]; rfl

theorem wellFormed_send (obj : Byte) (data : List Byte) :
    (Instr.send obj data).wellFormed = true ↔ data.length ≤ 16 := by
  simp only [Instr.wellFormed, decide_eq_true_eq]; rfl

theorem wellFormed_rspStatusAck (a b : Byte) (tail : List Byte) :
    (Instr.rspStatusAck a b tail).wellFormed = true ↔ tail.length + 4 ≤ 100 := by
  simp only [Instr.wellFormed, decide_eq_true_eq]; rfl

theorem wellFormed_rspStatusError (a b c : Byte) (tail : List Byte) :
    (Instr.rspStatusError a b c tail).wellFormed = true ↔ c ≠ 0 ∧ tail.length + 4 ≤ 100 := by
  simp only [Instr.wellFormed, Bool.and_eq_true, decide_eq_true_eq]; rfl

theorem wellFormed_rspData (r : List Byte) :
    (Instr.rspData r).wellFormed = true ↔ (1 ≤ r.length ∧ r.length ≤ 100) ∧ isStatus r = false := by
  simp only [Instr.wellFormed, Bool.and_eq_true, decide_eq_true_eq, Bool.not_eq_true']; rfl

/-! ### The response -/

/-- A response splits into its class by bytes 2 and 3 (R68, R112). -/
theorem decodeResponse_classify {r : List Byte} (h : r ≠ []) :
    (∃ a b tail, r = a :: b :: Config.statusMark :: Config.codeAck :: tail ∧
        decodeResponse r = .ok (.rspStatusAck a b tail) ∧ classify r = .ack) ∨
    (∃ a b code tail, code ≠ Config.codeAck ∧ r = a :: b :: Config.statusMark :: code :: tail ∧
        decodeResponse r = .ok (.rspStatusError a b code tail) ∧ classify r = .deviceError code) ∨
    (isStatus r = false ∧ decodeResponse r = .ok (.rspData r) ∧ classify r = .notStatus) := by
  match r, h with
  | [a], _ => exact .inr (.inr ⟨rfl, rfl, rfl⟩)
  | [a, b], _ => exact .inr (.inr ⟨rfl, rfl, rfl⟩)
  | [a, b, c], _ => exact .inr (.inr ⟨rfl, rfl, rfl⟩)
  | a :: b :: m :: c :: tail, _ =>
    by_cases hm : m = Config.statusMark
    · subst hm
      by_cases hc : c = Config.codeAck
      · subst hc
        exact .inl ⟨a, b, tail, rfl, by simp [decodeResponse], by simp [classify, statusCode, isStatus]⟩
      · exact .inr (.inl ⟨a, b, c, tail, hc, rfl, by simp [decodeResponse, hc],
          by simp [classify, statusCode, isStatus, hc]⟩)
    · exact .inr (.inr ⟨by simp [isStatus, hm], by simp [decodeResponse, hm],
        by simp [classify, statusCode, isStatus, hm]⟩)

end Sys2Proof.Machine
end

