-- ==== Sys2Proof/Laws/Meanings.lean ====
section
/-!
SUPPORT. What the operations behind the meanings do: ENCODE, the start of a TRANSFER, VERIFY_CHECKSUM and IS_ERROR, each as
one equation between states.
-/

namespace Sys2Proof.Machine

/-! ### The encoder -/

/-- What `writeTelegram` leaves: U1 holds the sum, TX the telegram (R100). -/
theorem writeTelegram_eq (body : List Byte) (s : State) :
    writeTelegram body s =
      { s with
        csAcc := sum16 body, csOut := some (hi8 (sum16 body), lo8 (sum16 body)),
        tx := cellsFrom 0 (withChecksum body), txLen := body.length + 2 } := by
  simp [writeTelegram, sumAndSplit_eq, withChecksum]

/-- ENCODE of a legal descriptor whose data can be read (R100). -/
theorem encodeRequest_eq {s : State} {data : List Byte} (hl : legalRequest s = true) (hd : requestData s = .ok data) :
    encodeRequest s =
      .next { s with
        csAcc := sum16 (requestBody s.reqKind s.reqNode s.reqObj data)
        csOut := some (hi8 (sum16 (requestBody s.reqKind s.reqNode s.reqObj data)),
          lo8 (sum16 (requestBody s.reqKind s.reqNode s.reqObj data)))
        tx := cellsFrom 0 (encodeTelegram s.reqKind s.reqNode s.reqObj data)
        txLen := 5 + data.length } := by
  simp [encodeRequest, hl, hd, withRead, writeTelegram_eq, encodeTelegram]
  omega

/-- A latched request is read back as it was latched (R51). -/
theorem requestData_latched (kind obj : Byte) {data : List Byte} (s : State) (h : data.length ≤ Config.maxTxData) :
    requestData (latchRequest kind obj data s) = .ok data := by
  rw [latchRequest_eq]
  exact readBytes_cells .req data _ h rfl

/-- Latch, encode, go to GAP (R136). -/
theorem startTransfer_eq {kind obj : Byte} {data : List Byte} (s : State) (hk : legalKind kind = true)
    (h : data.length ≤ Config.maxTxData) :
    startTransfer kind obj data s =
      .next { s with
        reqKind := kind, reqNode := 0, reqObj := obj, reqDlen := data.length, req := cellsFrom 0 data
        csAcc := sum16 (requestBody kind 0 obj data)
        csOut := some (hi8 (sum16 (requestBody kind 0 obj data)), lo8 (sum16 (requestBody kind 0 obj data)))
        tx := cellsFrom 0 (encodeTelegram kind 0 obj data)
        txLen := 5 + data.length
        phase := .gap } := by
  have hl : legalRequest (latchRequest kind obj data s) = true := by
    simp [latchRequest_eq, legalRequest, hk, h]
  rw [startTransfer, encodeRequest_eq hl (requestData_latched kind obj s h)]
  simp [andThen, latchRequest_eq]

/-! ### TRANSFER, case by case (R135) -/

theorem transferCommand_busy {kind obj : Byte} {dlen : Nat} {data : List Byte} {s : State} (h : s.phase ≠ .idle) :
    transferCommand kind obj dlen data s = .next s := by
  simp [transferCommand, ifReady, h]

theorem transferCommand_notConnected {kind obj : Byte} {dlen : Nat} {data : List Byte} {s : State}
    (h : s.phase = .idle) (hl : s.link ≠ .opened) :
    transferCommand kind obj dlen data s = .next (raiseError .notConnected (acceptCommand s)) := by
  simp [transferCommand, ifReady, h, acceptCommand_eq, hl]

theorem transferCommand_refused {kind obj : Byte} {dlen : Nat} {data : List Byte} {s : State}
    (h : s.phase = .idle) (hl : s.link = .opened) (hr : legalKind kind = false ∨ Config.maxTxData < dlen) :
    transferCommand kind obj dlen data s = .next (raiseError .refused (acceptCommand s)) := by
  rcases hr with hr | hr <;> simp [transferCommand, ifReady, h, acceptCommand_eq, hl, hr]

theorem transferCommand_accepted {kind obj : Byte} {dlen : Nat} {data : List Byte} {s : State}
    (h : s.phase = .idle) (hl : s.link = .opened) (hk : legalKind kind = true) (hd : dlen ≤ Config.maxTxData)
    (hlen : data.length ≤ Config.maxTxData) :
    transferCommand kind obj dlen data s =
      .next { acceptCommand s with
        reqKind := kind, reqNode := 0, reqObj := obj, reqDlen := data.length, req := cellsFrom 0 data
        csAcc := sum16 (requestBody kind 0 obj data)
        csOut := some (hi8 (sum16 (requestBody kind 0 obj data)), lo8 (sum16 (requestBody kind 0 obj data)))
        tx := cellsFrom 0 (encodeTelegram kind 0 obj data)
        txLen := 5 + data.length
        phase := .gap } := by
  have hd' : ¬ Config.maxTxData < dlen := by omega
  simp only [transferCommand, ifReady, h, if_true, acceptCommand_eq]
  rw [startTransfer_eq _ hk hlen]
  simp [hl, hk, hd']

/-- Everything a TRANSFER, QUERY or SEND can do: it never faults and is never refused by name. -/
theorem transferCommand_cases (kind obj : Byte) (dlen : Nat) (data : List Byte) (s : State)
    (hlen : dlen ≤ Config.maxTxData → data.length ≤ Config.maxTxData) :
    (s.phase ≠ .idle ∧ transferCommand kind obj dlen data s = .next s) ∨
    (s.phase = .idle ∧ s.link ≠ .opened ∧
      transferCommand kind obj dlen data s = .next (raiseError .notConnected (acceptCommand s))) ∨
    (s.phase = .idle ∧ s.link = .opened ∧ (legalKind kind = false ∨ Config.maxTxData < dlen) ∧
      transferCommand kind obj dlen data s = .next (raiseError .refused (acceptCommand s))) ∨
    (s.phase = .idle ∧ s.link = .opened ∧ legalKind kind = true ∧ data.length ≤ Config.maxTxData ∧
      transferCommand kind obj dlen data s =
        .next { acceptCommand s with
          reqKind := kind, reqNode := 0, reqObj := obj, reqDlen := data.length, req := cellsFrom 0 data
          csAcc := sum16 (requestBody kind 0 obj data)
          csOut := some (hi8 (sum16 (requestBody kind 0 obj data)), lo8 (sum16 (requestBody kind 0 obj data)))
          tx := cellsFrom 0 (encodeTelegram kind 0 obj data)
          txLen := 5 + data.length
          phase := .gap }) := by
  by_cases hp : s.phase = .idle
  · by_cases hl : s.link = .opened
    · by_cases hr : legalKind kind = false ∨ Config.maxTxData < dlen
      · exact .inr (.inr (.inl ⟨hp, hl, hr, transferCommand_refused hp hl hr⟩))
      · simp only [not_or, Bool.not_eq_false, Nat.not_lt] at hr
        exact .inr (.inr (.inr ⟨hp, hl, hr.1, hlen hr.2,
          transferCommand_accepted hp hl hr.1 hr.2 (hlen hr.2)⟩))
    · exact .inr (.inl ⟨hp, hl, transferCommand_notConnected hp hl⟩)
  · exact .inl ⟨hp, transferCommand_busy hp⟩

/-! ### The decoder -/

/-- What VERIFY_CHECKSUM writes (R110). -/
theorem verifyResponse_eq (r : List Byte) (s : State) :
    verifyResponse r s =
      { s with
        csAcc := if r.length < 2 then 0 else sum16 (summedPart r)
        csOut := if r.length < 2 then s.csOut else some (hi8 (sum16 (summedPart r)), lo8 (sum16 (summedPart r)))
        fCsMismatch := !checksumGood r } := by
  by_cases h : r.length < 2 <;> cases hc : checksumGood r <;>
    simp [verifyResponse, sumResponse, raiseError, clearSum, sumAndSplit_eq, h, hc]

/-- IS_ERROR writes the class flags and `code` of the class (R112). -/
theorem reportClass_eq (c : ResponseClass) (s : State) : reportClass c s = setClass c s := by
  cases c <;> rfl

/-- `setClass` touches four registers only. -/
theorem setClass_eq (c : ResponseClass) (s : State) :
    setClass c s =
      { s with
        fIsStatus := (setClass c s).fIsStatus, fAck := (setClass c s).fAck
        fDevError := (setClass c s).fDevError, code := (setClass c s).code } := by
  cases c <;> rfl

/-- A response carried out in phase CHECK (R146). -/
theorem checkResponse_eq {r : List Byte} {c : ResponseClass} {s : State} (h : s.phase = .check) :
    checkResponse r c s = .next (completeCommand (setClass c (verifyResponse r s))) := by
  simp [checkResponse, h, reportClass_eq]

/-- The class a response decodes to is carried out as VERIFY_CHECKSUM, IS_ERROR and completion (R146). -/
theorem exec_decodedResponse {r : List Byte} {i : Instr} {s : State} (h : decodeResponse r = .ok i)
    (hp : s.phase = .check) :
    exec i s = .next (completeCommand (setClass (classify r) (verifyResponse r s))) := by
  have hr : r ≠ [] := by rintro rfl; simp [decodeResponse] at h
  rcases decodeResponse_classify hr with ⟨a, b, tail, rfl, hd, hc⟩ | ⟨a, b, code, tail, -, rfl, hd, hc⟩ | ⟨-, hd, hc⟩ <;>
    (rw [hd] at h; cases h; rw [hc]; exact checkResponse_eq hp)

end Sys2Proof.Machine
end

