-- ==== Sys2Proof/Laws/State.lean ====
section
/-!
SUPPORT. One lemma per field per update, each true by rfl, so that no proof unfolds a record update.
-/

namespace Sys2Proof.Machine

@[simp] theorem clearFlags_csAcc (s : State) : (clearFlags s).csAcc = s.csAcc := rfl
@[simp] theorem clearFlags_reqKind (s : State) : (clearFlags s).reqKind = s.reqKind := rfl
@[simp] theorem clearFlags_reqNode (s : State) : (clearFlags s).reqNode = s.reqNode := rfl
@[simp] theorem clearFlags_reqObj (s : State) : (clearFlags s).reqObj = s.reqObj := rfl
@[simp] theorem clearFlags_reqDlen (s : State) : (clearFlags s).reqDlen = s.reqDlen := rfl
@[simp] theorem clearFlags_req (s : State) : (clearFlags s).req = s.req := rfl
@[simp] theorem clearFlags_tx (s : State) : (clearFlags s).tx = s.tx := rfl
@[simp] theorem clearFlags_txLen (s : State) : (clearFlags s).txLen = s.txLen := rfl
@[simp] theorem clearFlags_txIdx (s : State) : (clearFlags s).txIdx = s.txIdx := rfl
@[simp] theorem clearFlags_rx (s : State) : (clearFlags s).rx = s.rx := rfl
@[simp] theorem clearFlags_rxLen (s : State) : (clearFlags s).rxLen = s.rxLen := rfl
@[simp] theorem clearFlags_phase (s : State) : (clearFlags s).phase = s.phase := rfl
@[simp] theorem clearFlags_link (s : State) : (clearFlags s).link = s.link := rfl
@[simp] theorem clearFlags_done (s : State) : (clearFlags s).done = false := rfl
@[simp] theorem clearFlags_fNotConnected (s : State) : (clearFlags s).fNotConnected = false := rfl
@[simp] theorem clearFlags_fRefused (s : State) : (clearFlags s).fRefused = false := rfl
@[simp] theorem clearFlags_fIoError (s : State) : (clearFlags s).fIoError = false := rfl
@[simp] theorem clearFlags_fCsMismatch (s : State) : (clearFlags s).fCsMismatch = false := rfl
@[simp] theorem clearFlags_fIsStatus (s : State) : (clearFlags s).fIsStatus = false := rfl
@[simp] theorem clearFlags_fAck (s : State) : (clearFlags s).fAck = false := rfl
@[simp] theorem clearFlags_fDevError (s : State) : (clearFlags s).fDevError = false := rfl
@[simp] theorem clearFlags_code (s : State) : (clearFlags s).code = 0 := rfl
@[simp] theorem clearFlags_rxTimer (s : State) : (clearFlags s).rxTimer = s.rxTimer := rfl
@[simp] theorem clearFlags_gapTimer (s : State) : (clearFlags s).gapTimer = s.gapTimer := rfl
@[simp] theorem clearFlags_gapArmed (s : State) : (clearFlags s).gapArmed = s.gapArmed := rfl
@[simp] theorem clearFlags_wireOut (s : State) : (clearFlags s).wireOut = s.wireOut := rfl
@[simp] theorem clearFlags_csOut (s : State) : (clearFlags s).csOut = s.csOut := rfl
@[simp] theorem clearFlags_sumOut (s : State) : (clearFlags s).sumOut = s.sumOut := rfl
@[simp] theorem clearFlags_fieldsOut (s : State) : (clearFlags s).fieldsOut = s.fieldsOut := rfl
@[simp] theorem clearFlags_moments (s : State) : (clearFlags s).moments = s.moments := rfl
@[simp] theorem clearFlags_momentCount (s : State) : (clearFlags s).momentCount = s.momentCount := rfl

@[simp] theorem acceptCommand_csAcc (s : State) : (acceptCommand s).csAcc = s.csAcc := rfl
@[simp] theorem acceptCommand_reqKind (s : State) : (acceptCommand s).reqKind = s.reqKind := rfl
@[simp] theorem acceptCommand_reqNode (s : State) : (acceptCommand s).reqNode = s.reqNode := rfl
@[simp] theorem acceptCommand_reqObj (s : State) : (acceptCommand s).reqObj = s.reqObj := rfl
@[simp] theorem acceptCommand_reqDlen (s : State) : (acceptCommand s).reqDlen = s.reqDlen := rfl
@[simp] theorem acceptCommand_req (s : State) : (acceptCommand s).req = s.req := rfl
@[simp] theorem acceptCommand_tx (s : State) : (acceptCommand s).tx = s.tx := rfl
@[simp] theorem acceptCommand_txLen (s : State) : (acceptCommand s).txLen = s.txLen := rfl
@[simp] theorem acceptCommand_txIdx (s : State) : (acceptCommand s).txIdx = s.txIdx := rfl
@[simp] theorem acceptCommand_rx (s : State) : (acceptCommand s).rx = [] := rfl
@[simp] theorem acceptCommand_rxLen (s : State) : (acceptCommand s).rxLen = 0 := rfl
@[simp] theorem acceptCommand_phase (s : State) : (acceptCommand s).phase = s.phase := rfl
@[simp] theorem acceptCommand_link (s : State) : (acceptCommand s).link = s.link := rfl
@[simp] theorem acceptCommand_done (s : State) : (acceptCommand s).done = false := rfl
@[simp] theorem acceptCommand_fNotConnected (s : State) : (acceptCommand s).fNotConnected = false := rfl
@[simp] theorem acceptCommand_fRefused (s : State) : (acceptCommand s).fRefused = false := rfl
@[simp] theorem acceptCommand_fIoError (s : State) : (acceptCommand s).fIoError = false := rfl
@[simp] theorem acceptCommand_fCsMismatch (s : State) : (acceptCommand s).fCsMismatch = false := rfl
@[simp] theorem acceptCommand_fIsStatus (s : State) : (acceptCommand s).fIsStatus = false := rfl
@[simp] theorem acceptCommand_fAck (s : State) : (acceptCommand s).fAck = false := rfl
@[simp] theorem acceptCommand_fDevError (s : State) : (acceptCommand s).fDevError = false := rfl
@[simp] theorem acceptCommand_code (s : State) : (acceptCommand s).code = 0 := rfl
@[simp] theorem acceptCommand_rxTimer (s : State) : (acceptCommand s).rxTimer = s.rxTimer := rfl
@[simp] theorem acceptCommand_gapTimer (s : State) : (acceptCommand s).gapTimer = s.gapTimer := rfl
@[simp] theorem acceptCommand_gapArmed (s : State) : (acceptCommand s).gapArmed = s.gapArmed := rfl
@[simp] theorem acceptCommand_wireOut (s : State) : (acceptCommand s).wireOut = s.wireOut := rfl
@[simp] theorem acceptCommand_csOut (s : State) : (acceptCommand s).csOut = s.csOut := rfl
@[simp] theorem acceptCommand_sumOut (s : State) : (acceptCommand s).sumOut = s.sumOut := rfl
@[simp] theorem acceptCommand_fieldsOut (s : State) : (acceptCommand s).fieldsOut = s.fieldsOut := rfl
@[simp] theorem acceptCommand_moments (s : State) : (acceptCommand s).moments = s.moments := rfl
@[simp] theorem acceptCommand_momentCount (s : State) : (acceptCommand s).momentCount = s.momentCount := rfl

@[simp] theorem completeCommand_csAcc (s : State) : (completeCommand s).csAcc = s.csAcc := rfl
@[simp] theorem completeCommand_reqKind (s : State) : (completeCommand s).reqKind = s.reqKind := rfl
@[simp] theorem completeCommand_reqNode (s : State) : (completeCommand s).reqNode = s.reqNode := rfl
@[simp] theorem completeCommand_reqObj (s : State) : (completeCommand s).reqObj = s.reqObj := rfl
@[simp] theorem completeCommand_reqDlen (s : State) : (completeCommand s).reqDlen = s.reqDlen := rfl
@[simp] theorem completeCommand_req (s : State) : (completeCommand s).req = s.req := rfl
@[simp] theorem completeCommand_tx (s : State) : (completeCommand s).tx = s.tx := rfl
@[simp] theorem completeCommand_txLen (s : State) : (completeCommand s).txLen = s.txLen := rfl
@[simp] theorem completeCommand_txIdx (s : State) : (completeCommand s).txIdx = s.txIdx := rfl
@[simp] theorem completeCommand_rx (s : State) : (completeCommand s).rx = s.rx := rfl
@[simp] theorem completeCommand_rxLen (s : State) : (completeCommand s).rxLen = s.rxLen := rfl
@[simp] theorem completeCommand_phase (s : State) : (completeCommand s).phase = .idle := rfl
@[simp] theorem completeCommand_link (s : State) : (completeCommand s).link = s.link := rfl
@[simp] theorem completeCommand_done (s : State) : (completeCommand s).done = true := rfl
@[simp] theorem completeCommand_fNotConnected (s : State) : (completeCommand s).fNotConnected = s.fNotConnected := rfl
@[simp] theorem completeCommand_fRefused (s : State) : (completeCommand s).fRefused = s.fRefused := rfl
@[simp] theorem completeCommand_fIoError (s : State) : (completeCommand s).fIoError = s.fIoError := rfl
@[simp] theorem completeCommand_fCsMismatch (s : State) : (completeCommand s).fCsMismatch = s.fCsMismatch := rfl
@[simp] theorem completeCommand_fIsStatus (s : State) : (completeCommand s).fIsStatus = s.fIsStatus := rfl
@[simp] theorem completeCommand_fAck (s : State) : (completeCommand s).fAck = s.fAck := rfl
@[simp] theorem completeCommand_fDevError (s : State) : (completeCommand s).fDevError = s.fDevError := rfl
@[simp] theorem completeCommand_code (s : State) : (completeCommand s).code = s.code := rfl
@[simp] theorem completeCommand_rxTimer (s : State) : (completeCommand s).rxTimer = s.rxTimer := rfl
@[simp] theorem completeCommand_gapTimer (s : State) : (completeCommand s).gapTimer = s.gapTimer := rfl
@[simp] theorem completeCommand_gapArmed (s : State) : (completeCommand s).gapArmed = s.gapArmed := rfl
@[simp] theorem completeCommand_wireOut (s : State) : (completeCommand s).wireOut = s.wireOut := rfl
@[simp] theorem completeCommand_csOut (s : State) : (completeCommand s).csOut = s.csOut := rfl
@[simp] theorem completeCommand_sumOut (s : State) : (completeCommand s).sumOut = s.sumOut := rfl
@[simp] theorem completeCommand_fieldsOut (s : State) : (completeCommand s).fieldsOut = s.fieldsOut := rfl
@[simp] theorem completeCommand_moments (s : State) : (completeCommand s).moments = s.moments := rfl
@[simp] theorem completeCommand_momentCount (s : State) : (completeCommand s).momentCount = s.momentCount := rfl

@[simp] theorem clearSum_csAcc (s : State) : (clearSum s).csAcc = 0 := rfl
@[simp] theorem clearSum_reqKind (s : State) : (clearSum s).reqKind = s.reqKind := rfl
@[simp] theorem clearSum_reqNode (s : State) : (clearSum s).reqNode = s.reqNode := rfl
@[simp] theorem clearSum_reqObj (s : State) : (clearSum s).reqObj = s.reqObj := rfl
@[simp] theorem clearSum_reqDlen (s : State) : (clearSum s).reqDlen = s.reqDlen := rfl
@[simp] theorem clearSum_req (s : State) : (clearSum s).req = s.req := rfl
@[simp] theorem clearSum_tx (s : State) : (clearSum s).tx = s.tx := rfl
@[simp] theorem clearSum_txLen (s : State) : (clearSum s).txLen = s.txLen := rfl
@[simp] theorem clearSum_txIdx (s : State) : (clearSum s).txIdx = s.txIdx := rfl
@[simp] theorem clearSum_rx (s : State) : (clearSum s).rx = s.rx := rfl
@[simp] theorem clearSum_rxLen (s : State) : (clearSum s).rxLen = s.rxLen := rfl
@[simp] theorem clearSum_phase (s : State) : (clearSum s).phase = s.phase := rfl
@[simp] theorem clearSum_link (s : State) : (clearSum s).link = s.link := rfl
@[simp] theorem clearSum_done (s : State) : (clearSum s).done = s.done := rfl
@[simp] theorem clearSum_fNotConnected (s : State) : (clearSum s).fNotConnected = s.fNotConnected := rfl
@[simp] theorem clearSum_fRefused (s : State) : (clearSum s).fRefused = s.fRefused := rfl
@[simp] theorem clearSum_fIoError (s : State) : (clearSum s).fIoError = s.fIoError := rfl
@[simp] theorem clearSum_fCsMismatch (s : State) : (clearSum s).fCsMismatch = s.fCsMismatch := rfl
@[simp] theorem clearSum_fIsStatus (s : State) : (clearSum s).fIsStatus = s.fIsStatus := rfl
@[simp] theorem clearSum_fAck (s : State) : (clearSum s).fAck = s.fAck := rfl
@[simp] theorem clearSum_fDevError (s : State) : (clearSum s).fDevError = s.fDevError := rfl
@[simp] theorem clearSum_code (s : State) : (clearSum s).code = s.code := rfl
@[simp] theorem clearSum_rxTimer (s : State) : (clearSum s).rxTimer = s.rxTimer := rfl
@[simp] theorem clearSum_gapTimer (s : State) : (clearSum s).gapTimer = s.gapTimer := rfl
@[simp] theorem clearSum_gapArmed (s : State) : (clearSum s).gapArmed = s.gapArmed := rfl
@[simp] theorem clearSum_wireOut (s : State) : (clearSum s).wireOut = s.wireOut := rfl
@[simp] theorem clearSum_csOut (s : State) : (clearSum s).csOut = s.csOut := rfl
@[simp] theorem clearSum_sumOut (s : State) : (clearSum s).sumOut = s.sumOut := rfl
@[simp] theorem clearSum_fieldsOut (s : State) : (clearSum s).fieldsOut = s.fieldsOut := rfl
@[simp] theorem clearSum_moments (s : State) : (clearSum s).moments = s.moments := rfl
@[simp] theorem clearSum_momentCount (s : State) : (clearSum s).momentCount = s.momentCount := rfl

@[simp] theorem splitSum_csAcc (s : State) : (splitSum s).csAcc = s.csAcc := rfl
@[simp] theorem splitSum_reqKind (s : State) : (splitSum s).reqKind = s.reqKind := rfl
@[simp] theorem splitSum_reqNode (s : State) : (splitSum s).reqNode = s.reqNode := rfl
@[simp] theorem splitSum_reqObj (s : State) : (splitSum s).reqObj = s.reqObj := rfl
@[simp] theorem splitSum_reqDlen (s : State) : (splitSum s).reqDlen = s.reqDlen := rfl
@[simp] theorem splitSum_req (s : State) : (splitSum s).req = s.req := rfl
@[simp] theorem splitSum_tx (s : State) : (splitSum s).tx = s.tx := rfl
@[simp] theorem splitSum_txLen (s : State) : (splitSum s).txLen = s.txLen := rfl
@[simp] theorem splitSum_txIdx (s : State) : (splitSum s).txIdx = s.txIdx := rfl
@[simp] theorem splitSum_rx (s : State) : (splitSum s).rx = s.rx := rfl
@[simp] theorem splitSum_rxLen (s : State) : (splitSum s).rxLen = s.rxLen := rfl
@[simp] theorem splitSum_phase (s : State) : (splitSum s).phase = s.phase := rfl
@[simp] theorem splitSum_link (s : State) : (splitSum s).link = s.link := rfl
@[simp] theorem splitSum_done (s : State) : (splitSum s).done = s.done := rfl
@[simp] theorem splitSum_fNotConnected (s : State) : (splitSum s).fNotConnected = s.fNotConnected := rfl
@[simp] theorem splitSum_fRefused (s : State) : (splitSum s).fRefused = s.fRefused := rfl
@[simp] theorem splitSum_fIoError (s : State) : (splitSum s).fIoError = s.fIoError := rfl
@[simp] theorem splitSum_fCsMismatch (s : State) : (splitSum s).fCsMismatch = s.fCsMismatch := rfl
@[simp] theorem splitSum_fIsStatus (s : State) : (splitSum s).fIsStatus = s.fIsStatus := rfl
@[simp] theorem splitSum_fAck (s : State) : (splitSum s).fAck = s.fAck := rfl
@[simp] theorem splitSum_fDevError (s : State) : (splitSum s).fDevError = s.fDevError := rfl
@[simp] theorem splitSum_code (s : State) : (splitSum s).code = s.code := rfl
@[simp] theorem splitSum_rxTimer (s : State) : (splitSum s).rxTimer = s.rxTimer := rfl
@[simp] theorem splitSum_gapTimer (s : State) : (splitSum s).gapTimer = s.gapTimer := rfl
@[simp] theorem splitSum_gapArmed (s : State) : (splitSum s).gapArmed = s.gapArmed := rfl
@[simp] theorem splitSum_wireOut (s : State) : (splitSum s).wireOut = s.wireOut := rfl
@[simp] theorem splitSum_csOut (s : State) : (splitSum s).csOut = some (hi8 s.csAcc, lo8 s.csAcc) := rfl
@[simp] theorem splitSum_sumOut (s : State) : (splitSum s).sumOut = s.sumOut := rfl
@[simp] theorem splitSum_fieldsOut (s : State) : (splitSum s).fieldsOut = s.fieldsOut := rfl
@[simp] theorem splitSum_moments (s : State) : (splitSum s).moments = s.moments := rfl
@[simp] theorem splitSum_momentCount (s : State) : (splitSum s).momentCount = s.momentCount := rfl

@[simp] theorem dropMoment_csAcc (s : State) : (dropMoment s).csAcc = s.csAcc := rfl
@[simp] theorem dropMoment_reqKind (s : State) : (dropMoment s).reqKind = s.reqKind := rfl
@[simp] theorem dropMoment_reqNode (s : State) : (dropMoment s).reqNode = s.reqNode := rfl
@[simp] theorem dropMoment_reqObj (s : State) : (dropMoment s).reqObj = s.reqObj := rfl
@[simp] theorem dropMoment_reqDlen (s : State) : (dropMoment s).reqDlen = s.reqDlen := rfl
@[simp] theorem dropMoment_req (s : State) : (dropMoment s).req = s.req := rfl
@[simp] theorem dropMoment_tx (s : State) : (dropMoment s).tx = s.tx := rfl
@[simp] theorem dropMoment_txLen (s : State) : (dropMoment s).txLen = s.txLen := rfl
@[simp] theorem dropMoment_txIdx (s : State) : (dropMoment s).txIdx = s.txIdx := rfl
@[simp] theorem dropMoment_rx (s : State) : (dropMoment s).rx = s.rx := rfl
@[simp] theorem dropMoment_rxLen (s : State) : (dropMoment s).rxLen = s.rxLen := rfl
@[simp] theorem dropMoment_phase (s : State) : (dropMoment s).phase = s.phase := rfl
@[simp] theorem dropMoment_link (s : State) : (dropMoment s).link = s.link := rfl
@[simp] theorem dropMoment_done (s : State) : (dropMoment s).done = s.done := rfl
@[simp] theorem dropMoment_fNotConnected (s : State) : (dropMoment s).fNotConnected = s.fNotConnected := rfl
@[simp] theorem dropMoment_fRefused (s : State) : (dropMoment s).fRefused = s.fRefused := rfl
@[simp] theorem dropMoment_fIoError (s : State) : (dropMoment s).fIoError = s.fIoError := rfl
@[simp] theorem dropMoment_fCsMismatch (s : State) : (dropMoment s).fCsMismatch = s.fCsMismatch := rfl
@[simp] theorem dropMoment_fIsStatus (s : State) : (dropMoment s).fIsStatus = s.fIsStatus := rfl
@[simp] theorem dropMoment_fAck (s : State) : (dropMoment s).fAck = s.fAck := rfl
@[simp] theorem dropMoment_fDevError (s : State) : (dropMoment s).fDevError = s.fDevError := rfl
@[simp] theorem dropMoment_code (s : State) : (dropMoment s).code = s.code := rfl
@[simp] theorem dropMoment_rxTimer (s : State) : (dropMoment s).rxTimer = s.rxTimer := rfl
@[simp] theorem dropMoment_gapTimer (s : State) : (dropMoment s).gapTimer = s.gapTimer := rfl
@[simp] theorem dropMoment_gapArmed (s : State) : (dropMoment s).gapArmed = s.gapArmed := rfl
@[simp] theorem dropMoment_wireOut (s : State) : (dropMoment s).wireOut = s.wireOut := rfl
@[simp] theorem dropMoment_csOut (s : State) : (dropMoment s).csOut = s.csOut := rfl
@[simp] theorem dropMoment_sumOut (s : State) : (dropMoment s).sumOut = s.sumOut := rfl
@[simp] theorem dropMoment_fieldsOut (s : State) : (dropMoment s).fieldsOut = s.fieldsOut := rfl
@[simp] theorem dropMoment_moments (s : State) : (dropMoment s).moments = s.moments.tail := rfl
@[simp] theorem dropMoment_momentCount (s : State) : (dropMoment s).momentCount = s.momentCount + 1 := rfl

@[simp] theorem tickTimers_csAcc (s : State) : (tickTimers s).csAcc = s.csAcc := rfl
@[simp] theorem tickTimers_reqKind (s : State) : (tickTimers s).reqKind = s.reqKind := rfl
@[simp] theorem tickTimers_reqNode (s : State) : (tickTimers s).reqNode = s.reqNode := rfl
@[simp] theorem tickTimers_reqObj (s : State) : (tickTimers s).reqObj = s.reqObj := rfl
@[simp] theorem tickTimers_reqDlen (s : State) : (tickTimers s).reqDlen = s.reqDlen := rfl
@[simp] theorem tickTimers_req (s : State) : (tickTimers s).req = s.req := rfl
@[simp] theorem tickTimers_tx (s : State) : (tickTimers s).tx = s.tx := rfl
@[simp] theorem tickTimers_txLen (s : State) : (tickTimers s).txLen = s.txLen := rfl
@[simp] theorem tickTimers_txIdx (s : State) : (tickTimers s).txIdx = s.txIdx := rfl
@[simp] theorem tickTimers_rx (s : State) : (tickTimers s).rx = s.rx := rfl
@[simp] theorem tickTimers_rxLen (s : State) : (tickTimers s).rxLen = s.rxLen := rfl
@[simp] theorem tickTimers_phase (s : State) : (tickTimers s).phase = s.phase := rfl
@[simp] theorem tickTimers_link (s : State) : (tickTimers s).link = s.link := rfl
@[simp] theorem tickTimers_done (s : State) : (tickTimers s).done = s.done := rfl
@[simp] theorem tickTimers_fNotConnected (s : State) : (tickTimers s).fNotConnected = s.fNotConnected := rfl
@[simp] theorem tickTimers_fRefused (s : State) : (tickTimers s).fRefused = s.fRefused := rfl
@[simp] theorem tickTimers_fIoError (s : State) : (tickTimers s).fIoError = s.fIoError := rfl
@[simp] theorem tickTimers_fCsMismatch (s : State) : (tickTimers s).fCsMismatch = s.fCsMismatch := rfl
@[simp] theorem tickTimers_fIsStatus (s : State) : (tickTimers s).fIsStatus = s.fIsStatus := rfl
@[simp] theorem tickTimers_fAck (s : State) : (tickTimers s).fAck = s.fAck := rfl
@[simp] theorem tickTimers_fDevError (s : State) : (tickTimers s).fDevError = s.fDevError := rfl
@[simp] theorem tickTimers_code (s : State) : (tickTimers s).code = s.code := rfl
@[simp] theorem tickTimers_rxTimer (s : State) : (tickTimers s).rxTimer = if readTimerRuns s then s.rxTimer + 1 else s.rxTimer := rfl
@[simp] theorem tickTimers_gapTimer (s : State) : (tickTimers s).gapTimer = min (s.gapTimer + 1) Config.gapTicks := rfl
@[simp] theorem tickTimers_gapArmed (s : State) : (tickTimers s).gapArmed = s.gapArmed := rfl
@[simp] theorem tickTimers_wireOut (s : State) : (tickTimers s).wireOut = s.wireOut := rfl
@[simp] theorem tickTimers_csOut (s : State) : (tickTimers s).csOut = s.csOut := rfl
@[simp] theorem tickTimers_sumOut (s : State) : (tickTimers s).sumOut = s.sumOut := rfl
@[simp] theorem tickTimers_fieldsOut (s : State) : (tickTimers s).fieldsOut = s.fieldsOut := rfl
@[simp] theorem tickTimers_moments (s : State) : (tickTimers s).moments = s.moments := rfl
@[simp] theorem tickTimers_momentCount (s : State) : (tickTimers s).momentCount = s.momentCount := rfl

@[simp] theorem failWrite_csAcc (s : State) : (failWrite s).csAcc = s.csAcc := rfl
@[simp] theorem failWrite_reqKind (s : State) : (failWrite s).reqKind = s.reqKind := rfl
@[simp] theorem failWrite_reqNode (s : State) : (failWrite s).reqNode = s.reqNode := rfl
@[simp] theorem failWrite_reqObj (s : State) : (failWrite s).reqObj = s.reqObj := rfl
@[simp] theorem failWrite_reqDlen (s : State) : (failWrite s).reqDlen = s.reqDlen := rfl
@[simp] theorem failWrite_req (s : State) : (failWrite s).req = s.req := rfl
@[simp] theorem failWrite_tx (s : State) : (failWrite s).tx = s.tx := rfl
@[simp] theorem failWrite_txLen (s : State) : (failWrite s).txLen = s.txLen := rfl
@[simp] theorem failWrite_txIdx (s : State) : (failWrite s).txIdx = s.txIdx := rfl
@[simp] theorem failWrite_rx (s : State) : (failWrite s).rx = [] := rfl
@[simp] theorem failWrite_rxLen (s : State) : (failWrite s).rxLen = 0 := rfl
@[simp] theorem failWrite_phase (s : State) : (failWrite s).phase = .idle := rfl
@[simp] theorem failWrite_link (s : State) : (failWrite s).link = s.link := rfl
@[simp] theorem failWrite_done (s : State) : (failWrite s).done = true := rfl
@[simp] theorem failWrite_fNotConnected (s : State) : (failWrite s).fNotConnected = s.fNotConnected := rfl
@[simp] theorem failWrite_fRefused (s : State) : (failWrite s).fRefused = s.fRefused := rfl
@[simp] theorem failWrite_fIoError (s : State) : (failWrite s).fIoError = true := rfl
@[simp] theorem failWrite_fCsMismatch (s : State) : (failWrite s).fCsMismatch = s.fCsMismatch := rfl
@[simp] theorem failWrite_fIsStatus (s : State) : (failWrite s).fIsStatus = s.fIsStatus := rfl
@[simp] theorem failWrite_fAck (s : State) : (failWrite s).fAck = s.fAck := rfl
@[simp] theorem failWrite_fDevError (s : State) : (failWrite s).fDevError = s.fDevError := rfl
@[simp] theorem failWrite_code (s : State) : (failWrite s).code = s.code := rfl
@[simp] theorem failWrite_rxTimer (s : State) : (failWrite s).rxTimer = s.rxTimer := rfl
@[simp] theorem failWrite_gapTimer (s : State) : (failWrite s).gapTimer = 0 := rfl
@[simp] theorem failWrite_gapArmed (s : State) : (failWrite s).gapArmed = true := rfl
@[simp] theorem failWrite_wireOut (s : State) : (failWrite s).wireOut = s.wireOut := rfl
@[simp] theorem failWrite_csOut (s : State) : (failWrite s).csOut = s.csOut := rfl
@[simp] theorem failWrite_sumOut (s : State) : (failWrite s).sumOut = s.sumOut := rfl
@[simp] theorem failWrite_fieldsOut (s : State) : (failWrite s).fieldsOut = s.fieldsOut := rfl
@[simp] theorem failWrite_moments (s : State) : (failWrite s).moments = s.moments := rfl
@[simp] theorem failWrite_momentCount (s : State) : (failWrite s).momentCount = s.momentCount := rfl

@[simp] theorem addToSum_csAcc (b : Byte) (s : State) : (addToSum b s).csAcc = addByte s.csAcc b := rfl
@[simp] theorem addToSum_reqKind (b : Byte) (s : State) : (addToSum b s).reqKind = s.reqKind := rfl
@[simp] theorem addToSum_reqNode (b : Byte) (s : State) : (addToSum b s).reqNode = s.reqNode := rfl
@[simp] theorem addToSum_reqObj (b : Byte) (s : State) : (addToSum b s).reqObj = s.reqObj := rfl
@[simp] theorem addToSum_reqDlen (b : Byte) (s : State) : (addToSum b s).reqDlen = s.reqDlen := rfl
@[simp] theorem addToSum_req (b : Byte) (s : State) : (addToSum b s).req = s.req := rfl
@[simp] theorem addToSum_tx (b : Byte) (s : State) : (addToSum b s).tx = s.tx := rfl
@[simp] theorem addToSum_txLen (b : Byte) (s : State) : (addToSum b s).txLen = s.txLen := rfl
@[simp] theorem addToSum_txIdx (b : Byte) (s : State) : (addToSum b s).txIdx = s.txIdx := rfl
@[simp] theorem addToSum_rx (b : Byte) (s : State) : (addToSum b s).rx = s.rx := rfl
@[simp] theorem addToSum_rxLen (b : Byte) (s : State) : (addToSum b s).rxLen = s.rxLen := rfl
@[simp] theorem addToSum_phase (b : Byte) (s : State) : (addToSum b s).phase = s.phase := rfl
@[simp] theorem addToSum_link (b : Byte) (s : State) : (addToSum b s).link = s.link := rfl
@[simp] theorem addToSum_done (b : Byte) (s : State) : (addToSum b s).done = s.done := rfl
@[simp] theorem addToSum_fNotConnected (b : Byte) (s : State) : (addToSum b s).fNotConnected = s.fNotConnected := rfl
@[simp] theorem addToSum_fRefused (b : Byte) (s : State) : (addToSum b s).fRefused = s.fRefused := rfl
@[simp] theorem addToSum_fIoError (b : Byte) (s : State) : (addToSum b s).fIoError = s.fIoError := rfl
@[simp] theorem addToSum_fCsMismatch (b : Byte) (s : State) : (addToSum b s).fCsMismatch = s.fCsMismatch := rfl
@[simp] theorem addToSum_fIsStatus (b : Byte) (s : State) : (addToSum b s).fIsStatus = s.fIsStatus := rfl
@[simp] theorem addToSum_fAck (b : Byte) (s : State) : (addToSum b s).fAck = s.fAck := rfl
@[simp] theorem addToSum_fDevError (b : Byte) (s : State) : (addToSum b s).fDevError = s.fDevError := rfl
@[simp] theorem addToSum_code (b : Byte) (s : State) : (addToSum b s).code = s.code := rfl
@[simp] theorem addToSum_rxTimer (b : Byte) (s : State) : (addToSum b s).rxTimer = s.rxTimer := rfl
@[simp] theorem addToSum_gapTimer (b : Byte) (s : State) : (addToSum b s).gapTimer = s.gapTimer := rfl
@[simp] theorem addToSum_gapArmed (b : Byte) (s : State) : (addToSum b s).gapArmed = s.gapArmed := rfl
@[simp] theorem addToSum_wireOut (b : Byte) (s : State) : (addToSum b s).wireOut = s.wireOut := rfl
@[simp] theorem addToSum_csOut (b : Byte) (s : State) : (addToSum b s).csOut = s.csOut := rfl
@[simp] theorem addToSum_sumOut (b : Byte) (s : State) : (addToSum b s).sumOut = s.sumOut := rfl
@[simp] theorem addToSum_fieldsOut (b : Byte) (s : State) : (addToSum b s).fieldsOut = s.fieldsOut := rfl
@[simp] theorem addToSum_moments (b : Byte) (s : State) : (addToSum b s).moments = s.moments := rfl
@[simp] theorem addToSum_momentCount (b : Byte) (s : State) : (addToSum b s).momentCount = s.momentCount := rfl

@[simp] theorem resetBlock_csAcc (s : State) : (resetBlock s).csAcc = State.reset.csAcc := rfl
@[simp] theorem resetBlock_reqKind (s : State) : (resetBlock s).reqKind = State.reset.reqKind := rfl
@[simp] theorem resetBlock_reqNode (s : State) : (resetBlock s).reqNode = State.reset.reqNode := rfl
@[simp] theorem resetBlock_reqObj (s : State) : (resetBlock s).reqObj = State.reset.reqObj := rfl
@[simp] theorem resetBlock_reqDlen (s : State) : (resetBlock s).reqDlen = State.reset.reqDlen := rfl
@[simp] theorem resetBlock_req (s : State) : (resetBlock s).req = State.reset.req := rfl
@[simp] theorem resetBlock_tx (s : State) : (resetBlock s).tx = State.reset.tx := rfl
@[simp] theorem resetBlock_txLen (s : State) : (resetBlock s).txLen = State.reset.txLen := rfl
@[simp] theorem resetBlock_txIdx (s : State) : (resetBlock s).txIdx = State.reset.txIdx := rfl
@[simp] theorem resetBlock_rx (s : State) : (resetBlock s).rx = State.reset.rx := rfl
@[simp] theorem resetBlock_rxLen (s : State) : (resetBlock s).rxLen = State.reset.rxLen := rfl
@[simp] theorem resetBlock_phase (s : State) : (resetBlock s).phase = State.reset.phase := rfl
@[simp] theorem resetBlock_link (s : State) : (resetBlock s).link = State.reset.link := rfl
@[simp] theorem resetBlock_done (s : State) : (resetBlock s).done = State.reset.done := rfl
@[simp] theorem resetBlock_fNotConnected (s : State) : (resetBlock s).fNotConnected = State.reset.fNotConnected := rfl
@[simp] theorem resetBlock_fRefused (s : State) : (resetBlock s).fRefused = State.reset.fRefused := rfl
@[simp] theorem resetBlock_fIoError (s : State) : (resetBlock s).fIoError = State.reset.fIoError := rfl
@[simp] theorem resetBlock_fCsMismatch (s : State) : (resetBlock s).fCsMismatch = State.reset.fCsMismatch := rfl
@[simp] theorem resetBlock_fIsStatus (s : State) : (resetBlock s).fIsStatus = State.reset.fIsStatus := rfl
@[simp] theorem resetBlock_fAck (s : State) : (resetBlock s).fAck = State.reset.fAck := rfl
@[simp] theorem resetBlock_fDevError (s : State) : (resetBlock s).fDevError = State.reset.fDevError := rfl
@[simp] theorem resetBlock_code (s : State) : (resetBlock s).code = State.reset.code := rfl
@[simp] theorem resetBlock_rxTimer (s : State) : (resetBlock s).rxTimer = State.reset.rxTimer := rfl
@[simp] theorem resetBlock_gapTimer (s : State) : (resetBlock s).gapTimer = State.reset.gapTimer := rfl
@[simp] theorem resetBlock_gapArmed (s : State) : (resetBlock s).gapArmed = State.reset.gapArmed := rfl
@[simp] theorem resetBlock_wireOut (s : State) : (resetBlock s).wireOut = s.wireOut := rfl
@[simp] theorem resetBlock_csOut (s : State) : (resetBlock s).csOut = State.reset.csOut := rfl
@[simp] theorem resetBlock_sumOut (s : State) : (resetBlock s).sumOut = State.reset.sumOut := rfl
@[simp] theorem resetBlock_fieldsOut (s : State) : (resetBlock s).fieldsOut = State.reset.fieldsOut := rfl
@[simp] theorem resetBlock_moments (s : State) : (resetBlock s).moments = s.moments := rfl
@[simp] theorem resetBlock_momentCount (s : State) : (resetBlock s).momentCount = s.momentCount := rfl

/-- What the line and the time base can change before the framer moves: RX with its length, and the two timers. -/
theorem observe_eq (m : Moment) (s : State) :
    observe m s =
      { s with
        rx := (observe m s).rx, rxLen := (observe m s).rxLen
        gapTimer := (observe m s).gapTimer, rxTimer := (observe m s).rxTimer } := by
  simp only [observe, advanceTime, receive, receiveByte, writeByte, State.withBuffer, tickTimers]
  repeat' split
  all_goals rfl

@[simp] theorem observe_csAcc (m : Moment) (s : State) : (observe m s).csAcc = s.csAcc := by rw [observe_eq]
@[simp] theorem observe_reqKind (m : Moment) (s : State) : (observe m s).reqKind = s.reqKind := by rw [observe_eq]
@[simp] theorem observe_reqNode (m : Moment) (s : State) : (observe m s).reqNode = s.reqNode := by rw [observe_eq]
@[simp] theorem observe_reqObj (m : Moment) (s : State) : (observe m s).reqObj = s.reqObj := by rw [observe_eq]
@[simp] theorem observe_reqDlen (m : Moment) (s : State) : (observe m s).reqDlen = s.reqDlen := by rw [observe_eq]
@[simp] theorem observe_req (m : Moment) (s : State) : (observe m s).req = s.req := by rw [observe_eq]
@[simp] theorem observe_tx (m : Moment) (s : State) : (observe m s).tx = s.tx := by rw [observe_eq]
@[simp] theorem observe_txLen (m : Moment) (s : State) : (observe m s).txLen = s.txLen := by rw [observe_eq]
@[simp] theorem observe_txIdx (m : Moment) (s : State) : (observe m s).txIdx = s.txIdx := by rw [observe_eq]
@[simp] theorem observe_phase (m : Moment) (s : State) : (observe m s).phase = s.phase := by rw [observe_eq]
@[simp] theorem observe_link (m : Moment) (s : State) : (observe m s).link = s.link := by rw [observe_eq]
@[simp] theorem observe_done (m : Moment) (s : State) : (observe m s).done = s.done := by rw [observe_eq]
@[simp] theorem observe_fNotConnected (m : Moment) (s : State) : (observe m s).fNotConnected = s.fNotConnected := by rw [observe_eq]
@[simp] theorem observe_fRefused (m : Moment) (s : State) : (observe m s).fRefused = s.fRefused := by rw [observe_eq]
@[simp] theorem observe_fIoError (m : Moment) (s : State) : (observe m s).fIoError = s.fIoError := by rw [observe_eq]
@[simp] theorem observe_fCsMismatch (m : Moment) (s : State) : (observe m s).fCsMismatch = s.fCsMismatch := by rw [observe_eq]
@[simp] theorem observe_fIsStatus (m : Moment) (s : State) : (observe m s).fIsStatus = s.fIsStatus := by rw [observe_eq]
@[simp] theorem observe_fAck (m : Moment) (s : State) : (observe m s).fAck = s.fAck := by rw [observe_eq]
@[simp] theorem observe_fDevError (m : Moment) (s : State) : (observe m s).fDevError = s.fDevError := by rw [observe_eq]
@[simp] theorem observe_code (m : Moment) (s : State) : (observe m s).code = s.code := by rw [observe_eq]
@[simp] theorem observe_gapArmed (m : Moment) (s : State) : (observe m s).gapArmed = s.gapArmed := by rw [observe_eq]
@[simp] theorem observe_wireOut (m : Moment) (s : State) : (observe m s).wireOut = s.wireOut := by rw [observe_eq]
@[simp] theorem observe_csOut (m : Moment) (s : State) : (observe m s).csOut = s.csOut := by rw [observe_eq]
@[simp] theorem observe_sumOut (m : Moment) (s : State) : (observe m s).sumOut = s.sumOut := by rw [observe_eq]
@[simp] theorem observe_fieldsOut (m : Moment) (s : State) : (observe m s).fieldsOut = s.fieldsOut := by rw [observe_eq]
@[simp] theorem observe_moments (m : Moment) (s : State) : (observe m s).moments = s.moments := by rw [observe_eq]
@[simp] theorem observe_momentCount (m : Moment) (s : State) : (observe m s).momentCount = s.momentCount := by rw [observe_eq]

/-! ### The block and what stands around it -/

@[simp] theorem withBlock_self (s : State) : s.withBlock s.toBlock = s := rfl
@[simp] theorem withBlock_toBlock (s : State) (b : Block) : (s.withBlock b).toBlock = b := rfl
@[simp] theorem withBlock_moments (s : State) (b : Block) : (s.withBlock b).moments = s.moments := rfl
@[simp] theorem withBlock_momentCount (s : State) (b : Block) : (s.withBlock b).momentCount = s.momentCount := rfl
@[simp] theorem alone_toBlock (b : Block) : b.alone.toBlock = b := rfl
@[simp] theorem alone_withBlock (b c : Block) : b.alone.withBlock c = c.alone := rfl
@[simp] theorem dropMoment_toBlock (s : State) : (dropMoment s).toBlock = s.toBlock := rfl

end Sys2Proof.Machine
end

