-- ==== Sys2Proof/Laws/Framer.lean ====
section
/-!
SUPPORT. The step phase by phase, and what the line and the time base do before the framer moves.
-/

namespace Sys2Proof.Machine

/-! ### The timers' limits -/

/-- The gap is at least one tick, whatever the tick. -/
theorem gapTicks_pos : 0 < Config.gapTicks := by
  refine Nat.div_pos ?_ (Nat.succ_pos _)
  simp only [Config.gapMs]
  omega

/-- `T_GAP` ticks last at least 50 ms, and one tick fewer lasts less. -/
theorem gapTicks_spec :
    Config.gapMs * (Config.tickParts + 1) ≤ Config.gapTicks * (Config.tickUnits + 1) ∧
      (Config.gapTicks - 1) * (Config.tickUnits + 1) < Config.gapMs * (Config.tickParts + 1) := by
  have hm : 0 < Config.gapMs * (Config.tickParts + 1) := Nat.mul_pos (by decide) (Nat.succ_pos _)
  have h1 : Config.gapTicks * (Config.tickUnits + 1) ≤ Config.gapMs * (Config.tickParts + 1) + Config.tickUnits :=
    Nat.div_mul_le_self _ _
  have h2 : Config.gapMs * (Config.tickParts + 1) + Config.tickUnits < (Config.gapTicks + 1) * (Config.tickUnits + 1) :=
    Nat.lt_mul_of_div_lt (Nat.lt_succ_self _) (Nat.succ_pos _)
  rw [Nat.add_mul] at h2
  rw [Nat.sub_mul]
  generalize Config.gapTicks * (Config.tickUnits + 1) = g at *
  generalize Config.gapMs * (Config.tickParts + 1) = m at *
  constructor <;> omega

/-- `T_TIMEOUT` ticks last longer than 50 ms. -/
theorem gapMs_lt_timeoutTicks :
    Config.gapMs * (Config.tickParts + 1) < Config.timeoutTicks * (Config.tickUnits + 1) :=
  Nat.lt_mul_of_div_lt (Nat.lt_of_lt_of_le (Nat.lt_succ_self _) (Nat.le_add_right _ _)) (Nat.succ_pos _)

/-- So the gap timer has saturated when the read times out, at the latest. -/
theorem gapTicks_le_timeoutTicks : Config.gapTicks ≤ Config.timeoutTicks := by
  have h1 := gapTicks_spec.2
  have h2 := gapMs_lt_timeoutTicks
  have := lt_of_mul_lt_mul_right (h1.trans h2) (Nat.zero_le _)
  omega

theorem timeoutTicks_pos : 0 < Config.timeoutTicks := gapTicks_pos.trans_le gapTicks_le_timeoutTicks

/-! ### The step -/

/-- A step where signals are placed takes the first of them. -/
theorem step_placed (m : Moment) (rest : List Moment) (s : State) :
    step { s with moments := m :: rest } = runMoment m { s with moments := rest, momentCount := s.momentCount + 1 } := rfl

theorem step_reset {s : State} (h : (nextMoment s).reset = true) : step s = .next (resetBlock (dropMoment s)) := by
  simp [step, runMoment, h]

theorem step_move {s : State} (h : (nextMoment s).reset = false) :
    step s = move (nextMoment s) (observe (nextMoment s) (dropMoment s)) := by
  simp [step, runMoment, h]

theorem step_idle {s : State} (h : (nextMoment s).reset = false) (hp : s.phase = .idle) :
    step s = moveIdle (nextMoment s).command (observe (nextMoment s) (dropMoment s)) := by
  simp [step_move h, move, hp]

theorem step_gap {s : State} (h : (nextMoment s).reset = false) (hp : s.phase = .gap) :
    step s = moveGap (observe (nextMoment s) (dropMoment s)) := by
  simp [step_move h, move, hp]

theorem step_tx {s : State} (h : (nextMoment s).reset = false) (hp : s.phase = .tx) :
    step s = moveTx (nextMoment s).txReady (nextMoment s).txFail (observe (nextMoment s) (dropMoment s)) := by
  simp [step_move h, move, hp]

theorem step_rx {s : State} (h : (nextMoment s).reset = false) (hp : s.phase = .rx) :
    step s = moveRx (observe (nextMoment s) (dropMoment s)) := by
  simp [step_move h, move, hp]

theorem step_check {s : State} (h : (nextMoment s).reset = false) (hp : s.phase = .check) :
    step s = moveCheck (observe (nextMoment s) (dropMoment s)) := by
  simp [step_move h, move, hp]

/-- The phase CHECK: IoError for no response (R145), else both checks and completion (R146). -/
theorem moveCheck_eq {s : State} {r : List Byte} (hp : s.phase = .check) (hr : response s = .ok r) :
    moveCheck s =
      if r = [] then .next (raiseError .ioError s)
      else .next (completeCommand (setClass (classify r) (verifyResponse r s))) := by
  by_cases h : r = []
  · subst h; simp [moveCheck, hr, withRead, decodeResponse]
  · obtain ⟨i, hi⟩ : ∃ i, decodeResponse r = .ok i := by
      rcases decodeResponse_classify h with ⟨_, _, _, -, hd, -⟩ | ⟨_, _, _, _, -, -, hd, -⟩ | ⟨-, hd, -⟩ <;>
        exact ⟨_, hd⟩
    simp [moveCheck, hr, withRead, hi, h, exec_decodedResponse hi hp]

/-! ### The line and the time base -/

/-- Outside phases TX and RX a received byte is dropped (R148). -/
theorem receiveByte_closed {b : Byte} {s : State} (h : windowOpen s = false) : receiveByte b s = s := by
  simp [receiveByte, h]

theorem receive_closed {o : Option Byte} {s : State} (h : windowOpen s = false) : receive o s = s := by
  cases o <;> simp [receive, receiveByte_closed h]

theorem windowOpen_iff (s : State) :
    windowOpen s = true ↔ (s.phase = .tx ∨ s.phase = .rx) ∧ s.rxLen < 100 := by
  simp only [windowOpen, Bool.and_eq_true, Bool.or_eq_true, beq_iff_eq, decide_eq_true_eq]
  rfl

theorem windowOpen_false {s : State} (h1 : s.phase ≠ .tx) (h2 : s.phase ≠ .rx) : windowOpen s = false := by
  simp [windowOpen, h1, h2]

@[simp] theorem advanceTime_rx (t : Bool) (s : State) : (advanceTime t s).rx = s.rx := by
  cases t <;> rfl

@[simp] theorem advanceTime_rxLen (t : Bool) (s : State) : (advanceTime t s).rxLen = s.rxLen := by
  cases t <;> rfl

theorem observe_rx (m : Moment) (s : State) : (observe m s).rx = (receive m.received s).rx := by
  simp [observe]

theorem observe_rxLen (m : Moment) (s : State) : (observe m s).rxLen = (receive m.received s).rxLen := by
  simp [observe]

/-- With the window closed RX is left alone. -/
theorem observe_rx_closed {m : Moment} {s : State} (h : windowOpen s = false) :
    (observe m s).rx = s.rx ∧ (observe m s).rxLen = s.rxLen := by
  simp [observe, receive_closed h]

@[simp] theorem receive_gapTimer (o : Option Byte) (s : State) : (receive o s).gapTimer = s.gapTimer := by
  cases o
  · rfl
  · simp only [receive, receiveByte]; split <;> rfl

@[simp] theorem receive_rxTimer (o : Option Byte) (s : State) : (receive o s).rxTimer = s.rxTimer := by
  cases o
  · rfl
  · simp only [receive, receiveByte]; split <;> rfl

@[simp] theorem receive_phase (o : Option Byte) (s : State) : (receive o s).phase = s.phase := by
  cases o
  · rfl
  · simp only [receive, receiveByte]; split <;> rfl

/-- Receiving does not look at the moments. -/
theorem receive_dropMoment (o : Option Byte) (s : State) : receive o (dropMoment s) = dropMoment (receive o s) := by
  cases o with
  | none => rfl
  | some b =>
    have e : windowOpen (dropMoment s) = windowOpen s := rfl
    cases h : windowOpen s <;> simp only [receive, receiveByte, e, h] <;> rfl

theorem observe_gapTimer (m : Moment) (s : State) :
    (observe m s).gapTimer = if m.tick then min (s.gapTimer + 1) Config.gapTicks else s.gapTimer := by
  cases h : m.tick <;> simp [observe, advanceTime, h]

theorem observe_rxTimer (m : Moment) (s : State) :
    (observe m s).rxTimer =
      if m.tick ∧ s.phase = .rx ∧ (observe m s).rxLen ≠ 100 ∧ s.rxTimer ≠ Config.timeoutTicks then s.rxTimer + 1
      else s.rxTimer := by
  cases h : m.tick
  · simp [observe, advanceTime, h]
  · simp [observe, advanceTime, h, readTimerRuns, and_assoc]
    rfl

/-- A moment without a received byte and without a tick changes nothing before the framer moves. -/
theorem observe_still {m : Moment} {s : State} (h1 : m.received = none) (h2 : m.tick = false) : observe m s = s := by
  simp [observe, receive, advanceTime, h1, h2]

end Sys2Proof.Machine
end

