-- ==== Sys2Proof/Laws/Invariant.lean ====
section
/-!
SUPPORT. The parts of the invariant in the form proofs use, what they give for reads, and that taking a moment, a received byte
and a tick keep it.
-/

namespace Sys2Proof.Machine

/-! ### Buffers filled from 0 -/

theorem bytesOf_cellsFrom (a : Nat) (bs : List Byte) : bytesOf (cellsFrom a bs) = bs := cellsFrom_bytes a bs

theorem filledTo_cellsFrom (bs : List Byte) : FilledTo (cellsFrom 0 bs) bs.length := by
  simp [FilledTo, cellsFrom_keys, List.range_eq_range']

theorem FilledTo.length {m : Memory} {n : Nat} (h : FilledTo m n) : (bytesOf m).length = n := by
  have := congrArg List.length h
  simpa [bytesOf] using this

theorem FilledTo.cells {m : Memory} {n : Nat} (h : FilledTo m n) : m = cellsFrom 0 (bytesOf m) := by
  have hl : m.length = n := by simpa [bytesOf] using h.length
  exact eq_cellsFrom_of_keys m 0 (by rw [h, hl, List.range_eq_range'])

theorem FilledTo.wf {m : Memory} {n : Nat} (h : FilledTo m n) : m.wf := by
  rw [h.cells]; exact cellsFrom_wf _ _

/-- A write at the end keeps the form. -/
theorem FilledTo.push {m : Memory} {n : Nat} (h : FilledTo m n) (b : Byte) :
    m.write n b = cellsFrom 0 (bytesOf m ++ [b]) := by
  have := cellsFrom_write_end 0 (bytesOf m) b
  rw [← h.cells, Nat.zero_add, h.length] at this
  exact this

theorem BuffersFit.response {s : State} (h : BuffersFit s) : response s = .ok (bytesOf s.rx) := by
  have hl := h.rx.length
  have := readBytes_cells .rx (bytesOf s.rx) s (by rw [hl]; exact h.rxLen) h.rx.cells
  rwa [hl] at this

theorem BuffersFit.requestData {s : State} (h : BuffersFit s) : requestData s = .ok (bytesOf s.req) := by
  have hl := h.req.length
  have := readBytes_cells .req (bytesOf s.req) s (by rw [hl]; exact h.reqLen) h.req.cells
  rwa [hl] at this

theorem readByte_cells {sp : Space} {bs : List Byte} {s : State} (hs : bs.length ≤ sp.size)
    (h : s.buffer sp = cellsFrom 0 bs) {i : Nat} (hi : i < bs.length) : readByte sp i s = .ok bs[i] := by
  have := cellsFrom_read 0 i bs
  rw [Nat.zero_add] at this
  simp [readByte, h, this, hi, show i < sp.size by omega]

theorem BuffersFit.txLen_le {s : State} (h : BuffersFit s) : s.txLen ≤ Config.txBufSize := by
  rcases h.txLen with h | h
  · simp [h]
  · exact h.2

theorem BuffersFit.readTx {s : State} (h : BuffersFit s) {i : Nat} (hi : i < s.txLen) :
    ∃ b, (bytesOf s.tx)[i]? = some b ∧ readByte .tx i s = .ok b := by
  have hl := h.tx.length
  have hi' : i < (bytesOf s.tx).length := by omega
  exact ⟨_, List.getElem?_eq_getElem hi',
    readByte_cells (sp := .tx) (s := s) (by rw [hl]; exact h.txLen_le) h.tx.cells hi'⟩

/-! ### Flags -/

theorem noRecord_iff (s : State) :
    NoRecord s ↔
      s.done = false ∧ s.fNotConnected = false ∧ s.fRefused = false ∧ s.fIoError = false ∧ s.fCsMismatch = false ∧
        s.fIsStatus = false ∧ s.fAck = false ∧ s.fDevError = false ∧ s.code = 0 := by
  obtain ⟨⟨⟩, _, _⟩ := s
  simp only [NoRecord, clearFlags, State.mk.injEq, Block.mk.injEq]
  constructor <;> intro h <;> simp_all

theorem setClass_eq_self_iff (c : ResponseClass) (s : State) :
    setClass c s = s ↔
      match c with
      | .notStatus => s.fIsStatus = false ∧ s.fAck = false ∧ s.fDevError = false ∧ s.code = 0
      | .ack => s.fIsStatus = true ∧ s.fAck = true ∧ s.fDevError = false ∧ s.code = 0
      | .deviceError k => s.fIsStatus = true ∧ s.fAck = false ∧ s.fDevError = true ∧ s.code = k := by
  obtain ⟨⟨⟩, _, _⟩ := s
  cases c <;> simp only [setClass, Config.codeAck, State.mk.injEq, Block.mk.injEq] <;> constructor <;> intro h <;> simp_all

/-- Class flags depend on four registers only. -/
theorem setClass_self_congr {c : ResponseClass} {s t : State} (h : setClass c s = s) (h1 : t.fIsStatus = s.fIsStatus)
    (h2 : t.fAck = s.fAck) (h3 : t.fDevError = s.fDevError) (h4 : t.code = s.code) : setClass c t = t := by
  rw [setClass_eq_self_iff] at *
  cases c <;> simp_all

/-! ### What keeps the invariant before the framer moves -/

/-- The invariant says nothing of the signals to come. -/
theorem inv_withMoments {s : State} (h : Inv s) (ms : List Moment) (n : Nat) :
    Inv { s with moments := ms, momentCount := n } where
  buffers := ⟨h.buffers.req, h.buffers.tx, h.buffers.rx, h.buffers.reqLen, h.buffers.txLen, h.buffers.txIdx,
    h.buffers.rxLen⟩
  timers := ⟨h.timers.gap, h.timers.read⟩
  inFlight hp :=
    have f := h.inFlight hp
    ⟨f.linkOpen, (noRecord_iff _).2 ((noRecord_iff s).1 f.noRecord), f.kind, f.node, f.telegram⟩
  wire := ⟨h.wire.gap, h.wire.tx, h.wire.rx⟩
  results hd :=
    have r := h.results hd
    ⟨setClass_self_congr r.classFlags rfl rfl rfl rfl, r.checksum, r.sum, r.notConnected, r.refused, r.ioError⟩
  fresh hd := (noRecord_iff _).2 ((noRecord_iff s).1 (h.fresh hd))

theorem inv_dropMoment {s : State} (h : Inv s) : Inv (dropMoment s) := inv_withMoments h _ _

theorem inv_receiveByte {s : State} (h : Inv s) (b : Byte) : Inv (receiveByte b s) := by
  by_cases hw : windowOpen s = true
  · obtain ⟨hp, hl⟩ := (windowOpen_iff s).1 hw
    have hidle : s.phase ≠ .idle := by rcases hp with hp | hp <;> simp [hp]
    have hgap : s.phase ≠ .gap := by rcases hp with hp | hp <;> simp [hp]
    have f := h.inFlight hidle
    have hdone := ((noRecord_iff s).1 f.noRecord).1
    have e : receiveByte b s = { s with rx := cellsFrom 0 (bytesOf s.rx ++ [b]), rxLen := s.rxLen + 1 } := by
      simp [receiveByte, hw, writeByte, h.buffers.rx.push]
    have hfill := filledTo_cellsFrom (bytesOf s.rx ++ [b])
    simp only [List.length_append, h.buffers.rx.length, List.length_singleton] at hfill
    rw [e]
    exact {
      buffers := ⟨h.buffers.req, h.buffers.tx, hfill, h.buffers.reqLen, h.buffers.txLen, h.buffers.txIdx,
        by simp only [Config.rxBufSize]; omega⟩
      timers := ⟨h.timers.gap, h.timers.read⟩
      inFlight := fun _ => ⟨f.linkOpen, (noRecord_iff _).2 ((noRecord_iff s).1 f.noRecord), f.kind, f.node, f.telegram⟩
      wire := ⟨fun hg => absurd hg hgap, h.wire.tx, h.wire.rx⟩
      results := fun hd => absurd (show s.done = true from hd) (by simp [hdone])
      fresh := fun hd => (noRecord_iff _).2 ((noRecord_iff s).1 (h.fresh hd)) }
  · rw [receiveByte_closed (by simpa using hw)]; exact h

theorem inv_receive {s : State} (h : Inv s) (o : Option Byte) : Inv (receive o s) := by
  cases o
  · exact h
  · exact inv_receiveByte h _

theorem inv_tickTimers {s : State} (h : Inv s) : Inv (tickTimers s) where
  buffers := ⟨h.buffers.req, h.buffers.tx, h.buffers.rx, h.buffers.reqLen, h.buffers.txLen, h.buffers.txIdx,
    h.buffers.rxLen⟩
  timers := by
    refine ⟨by simp, ?_⟩
    have := h.timers.read
    rw [tickTimers_rxTimer]
    split_ifs with hr
    · simp only [readTimerRuns, Bool.and_eq_true, decide_eq_true_eq] at hr
      omega
    · exact this
  inFlight hp :=
    have f := h.inFlight hp
    ⟨f.linkOpen, (noRecord_iff _).2 ((noRecord_iff s).1 f.noRecord), f.kind, f.node, f.telegram⟩
  wire := ⟨h.wire.gap, h.wire.tx, h.wire.rx⟩
  results hd :=
    have r := h.results hd
    ⟨setClass_self_congr r.classFlags rfl rfl rfl rfl, r.checksum, r.sum, r.notConnected, r.refused, r.ioError⟩
  fresh hd := (noRecord_iff _).2 ((noRecord_iff s).1 (h.fresh hd))

/-- Taking a moment, its received byte and its tick keep the invariant. -/
theorem inv_observe {s : State} (h : Inv s) (m : Moment) : Inv (observe m (dropMoment s)) := by
  simp only [observe, advanceTime]
  split
  · exact inv_tickTimers (inv_receive (inv_dropMoment h) _)
  · exact inv_receive (inv_dropMoment h) _

/-! ### Runs -/

theorem run_next {s t : State} (n : Nat) (h : step s = .next t) :
    Host.Core.run core (n + 1) s = Host.Core.run core n t := by
  have e : core.step s = .next t := h
  simp only [Host.Core.run, e]

/-- Two runs one after the other. -/
theorem run_add {s t : State} (m n : Nat) (h : Host.Core.run core m s = .next t) :
    Host.Core.run core (m + n) s = Host.Core.run core n t := by
  induction m generalizing s with
  | zero => cases h; simp
  | succ m ih =>
    cases hs : step s with
    | next u =>
      rw [run_next m hs] at h
      rw [Nat.add_right_comm, run_next _ hs, ih h]
    | fault r =>
      have e : core.step s = .fault r := hs
      simp only [Host.Core.run, e] at h
      cases h
    | refused r =>
      have e : core.step s = .refused r := hs
      simp only [Host.Core.run, e] at h
      cases h

end Sys2Proof.Machine
end

