-- ==== Sys2Proof/Laws/PerInstr.lean ====
section
/-!
SUPPORT. A statement about every instruction, one lemma per constructor: how long its telegram can be (spec/30_encoding.md R60,
R71).
-/

open Sys2Proof Sys2Proof.Machine

namespace Sys2Proof.Laws.WireLength

/-- A well-formed instruction's telegram fits its buffer: 1 to 100 bytes, and 5 to 21 toward the device. -/
def Statement (i : Instr) : Prop :=
  i.wellFormed = true → ∀ t, encode i = some t →
    1 ≤ t.length ∧ t.length ≤ Config.rxBufSize ∧ (direction i = .toDevice → 5 ≤ t.length ∧ t.length ≤ Config.txBufSize)

/-- An instruction without a telegram. -/
theorem of_none {i : Instr} (h : encode i = none) : Statement i := fun _ t ht => by rw [h] at ht; cases ht

/-- A request of at most 16 data bytes. -/
theorem of_request {kind node obj : Byte} {data t : List Byte} (h : data.length ≤ 16)
    (ht : some (encodeTelegram kind node obj data) = some t) : 5 ≤ t.length ∧ t.length ≤ 21 := by
  cases ht; rw [encodeTelegram_length]; omega

theorem query (obj : Byte) (data : List Byte) : Statement (.query obj data) := fun h t ht => by
  have := of_request (of_decide_eq_true h) ht
  simp only [Config.rxBufSize, Config.txBufSize]; omega

theorem send (obj : Byte) (data : List Byte) : Statement (.send obj data) := fun h t ht => by
  have := of_request (of_decide_eq_true h) ht
  simp only [Config.rxBufSize, Config.txBufSize]; omega

theorem rspStatusAck (first second : Byte) (tail : List Byte) : Statement (.rspStatusAck first second tail) :=
  fun h t ht => by
    have hl : tail.length + 4 ≤ 100 := of_decide_eq_true h
    cases ht
    exact ⟨by simp, hl, nofun⟩

theorem rspStatusError (first second code : Byte) (tail : List Byte) :
    Statement (.rspStatusError first second code tail) := fun h t ht => by
  have := (wellFormed_rspStatusError first second code tail).1 h
  cases ht
  exact ⟨by simp, this.2, nofun⟩

theorem rspData (bytes : List Byte) : Statement (.rspData bytes) := fun h t ht => by
  have := (wellFormed_rspData bytes).1 h
  cases ht
  exact ⟨this.1.1, this.1.2, nofun⟩

theorem openLink : Statement .openLink := of_none rfl
theorem closeLink : Statement .closeLink := of_none rfl
theorem transfer (kind obj : Byte) (dlen : BitVec 5) (data : Vector Byte 16) : Statement (.transfer kind obj dlen data) :=
  of_none rfl
theorem encode : Statement .encode := of_none rfl
theorem verifyChecksum : Statement .verifyChecksum := of_none rfl
theorem isError : Statement .isError := of_none rfl
theorem rspFields : Statement .rspFields := of_none rfl
theorem csClear : Statement .csClear := of_none rfl
theorem csAdd (b : Byte) : Statement (.csAdd b) := of_none rfl
theorem sum16 (bytes : List Byte) : Statement (.sum16 bytes) := of_none rfl
theorem csSplit : Statement .csSplit := of_none rfl

end Sys2Proof.Laws.WireLength
end

