-- ==== Sys2Proof/Tests/Slice0.lean ====
section
/-!
SUPPORT. Small tests: expected values from spec/95_test_vectors.md (its section in each docstring) or from the rule named.
Then, for every statement with hypotheses, a named witness that meets them.
-/

namespace Sys2Proof.Tests

open Sys2Proof.Machine

/-! ### Small states -/

/-- One field of a next state. -/
def fieldOf {α : Type} (f : State → α) : Host.Outcome State Fault Refusal → Option α
  | .next t => some (f t)
  | .fault _ => none
  | .refused _ => none

/-- The acknowledge of S6. -/
def ackBytes : List Byte := [0x80, 0x00, 0xFF, 0x00, 0x01, 0x7F]

/-- The device error of S6. -/
def errorBytes : List Byte := [0x80, 0x00, 0xFF, 0x05, 0x01, 0x84]

/-- The data response for object 2 (2.3). -/
def floatBytes : List Byte := [0x83, 0x00, 0x02, 0x41, 0xF0, 0x00, 0x00, 0x01, 0xB6]

/-- An open link, nothing done yet; the next moment is quiet. -/
def opened : State := { State.reset with link := .opened, moments := [.quiet] }

/-- A closed link. -/
def closedLink : State := { State.reset with link := .closed }

/-- `opened` with signals to come. -/
def openedWith (ms : List Moment) : State := { opened with moments := ms }

/-- The request `SEND 54, [0x10, 0x10]` latched and encoded, the framer in phase `p` with `idx` bytes handed over. -/
def inPhase (p : Phase) (idx : Nat) : State :=
  { opened with
    reqKind := 0xC0, reqObj := 54, reqDlen := 2, req := cellsFrom 0 [0x10, 0x10]
    tx := cellsFrom 0 [0xF1, 0x00, 0x36, 0x10, 0x10, 0x01, 0x47], txLen := 7, txIdx := idx, phase := p }

/-- The telegram is on the wire and `r` was received, phase `p`. -/
def received (p : Phase) (r : List Byte) : State :=
  { inPhase p 7 with
    wireOut := [0xF1, 0x00, 0x36, 0x10, 0x10, 0x01, 0x47], gapArmed := true, rx := cellsFrom 0 r, rxLen := r.length }

/-- Sixteen data lines, the first two given. -/
def twoLines (a b : Byte) : Vector Byte 16 := dataLines [a, b]

/-! ### Well-formedness: an ill-formed term for each check -/

theorem test_query_too_long : (Instr.query 50 (List.replicate 17 0)).wellFormed = false := by decide
theorem test_query_full : (Instr.query 50 (List.replicate 16 0)).wellFormed = true := by decide
theorem test_send_too_long : (Instr.send 50 (List.replicate 17 0)).wellFormed = false := by decide
theorem test_ack_too_long : (Instr.rspStatusAck 0 0 (List.replicate 97 0)).wellFormed = false := by decide
theorem test_error_too_long : (Instr.rspStatusError 0 0 5 (List.replicate 97 0)).wellFormed = false := by decide
theorem test_error_code_zero : (Instr.rspStatusError 0 0 0 [0x01, 0x7F]).wellFormed = false := by decide
theorem test_data_empty : (Instr.rspData []).wellFormed = false := by decide
theorem test_data_too_long : (Instr.rspData (List.replicate 101 0)).wellFormed = false := by decide
theorem test_data_is_status : (Instr.rspData ackBytes).wellFormed = false := by decide

/-! ### Decoding: words written out from the encodings -/

/-- QUERY: KIND 0b01, constant 0b11, LEN 0 (R62); then node, object 71 and the sum `0x00B7`. -/
theorem test_decode_query : decode .toDevice [0b01110000, 0x00, 71, 0x00, 0xB7] = .ok (.query 71 []) := by decide
/-- SEND: KIND 0b11, constant 0b11, LEN 1 for two data bytes (R62). -/
theorem test_decode_send :
    decode .toDevice [0b11110001, 0x00, 54, 0x10, 0x10, 0x01, 0x47] = .ok (.send 54 [0x10, 0x10]) := by decide
/-- One data byte has LEN 0 too (2.2, corner cases). -/
theorem test_decode_send_one : decode .toDevice [0xF0, 0x00, 0x36, 0xAA, 0x01, 0xD0] = .ok (.send 54 [0xAA]) := by
  decide
/-- The acknowledge (S6). -/
theorem test_decode_ack :
    decode .fromDevice [0x80, 0x00, 0b11111111, 0b00000000, 0x01, 0x7F] = .ok (.rspStatusAck 0x80 0x00 [0x01, 0x7F]) := by
  decide
/-- The device error 5 (S6). -/
theorem test_decode_error :
    decode .fromDevice [0x80, 0x00, 0b11111111, 0b00000101, 0x01, 0x84] =
      .ok (.rspStatusError 0x80 0x00 5 [0x01, 0x84]) := by decide
/-- `00 FF 00 FF`: the marker counts in byte 2 only (2.3). -/
theorem test_decode_data : decode .fromDevice [0x00, 0xFF, 0x00, 0xFF] = .ok (.rspData [0x00, 0xFF, 0x00, 0xFF]) := by
  decide
/-- A cut status response of three bytes is none (R112). -/
theorem test_decode_short : decode .fromDevice [0x00, 0x00, 0xFF] = .ok (.rspData [0x00, 0x00, 0xFF]) := by decide
/-- SD `0xB0`, kind `0x80`: ENCODE never produces it (R69). -/
theorem test_decode_reserved : decode .toDevice [0xB0, 0x00, 0x00, 0x00, 0xB0] = .error .notARequestDelimiter := by decide
/-- Every reason of refusal is reached. -/
theorem test_decode_refusals :
    decode .toDevice [0x70, 0x00, 0x47, 0x00] = .error .requestTooShort ∧
    decode .toDevice [0x70, 0x05, 0x47, 0x00, 0xBC] = .error .nodeNotFixed ∧
    decode .toDevice [0x71, 0x00, 0x47, 0x00, 0xB8] = .error .lengthFieldWrong ∧
    decode .fromDevice [] = .error .emptyResponse := by decide
/-- The host commands decode by name and kind (R68, R69). -/
theorem test_decode_commands :
    decodeCommand .openLink = .openLink ∧ decodeCommand .closeLink = .closeLink ∧
    decodeCommand (.transfer 0x40 71 0 (twoLines 0 0)) = .query 71 [] ∧
    decodeCommand (.transfer 0xC0 54 2 (twoLines 0x10 0x10)) = .send 54 [0x10, 0x10] ∧
    decodeCommand (.transfer 0x41 71 0 (twoLines 0 0)) = .transfer 0x41 71 0 (twoLines 0 0) ∧
    decodeCommand (.transfer 0xC0 50 17 (twoLines 0 0)) = .transfer 0xC0 50 17 (twoLines 0 0) := by decide
/-- Table words: the two request rows and the two status rows. -/
theorem test_table_words :
    decodeTableWord 8 0x70 = some (.query 0 []) ∧ decodeTableWord 8 0xFF = some (.send 0 (List.replicate 16 0)) ∧
    decodeTableWord 16 0xFF00 = some (.rspStatusAck 0 0 [0, 0]) ∧
    decodeTableWord 16 0xFF05 = some (.rspStatusError 0 0 5 [0, 0]) := by decide
/-- A placed QUERY runs in the very next step after reset: the link is unopened, so it is NotConnected (R135). -/
theorem test_step_table_word :
    fieldOf (·.fNotConnected) (step (State.reset.withFetchWord 8 0x70)) = some true := by decide
/-- A placed acknowledge runs in the very next step (R112). -/
theorem test_step_table_response :
    fieldOf (·.fAck) (step (State.reset.withFetchWord 16 0xFF00)) = some true := by decide

/-! ### Unit U1 (2.1) -/

theorem test_sum : sum16 [0xF1, 0x00, 0x36, 0x10, 0x10] = 0x0147 := by decide
theorem test_sum_unsigned : sum16 [0xFF, 0xFF] = 0x01FE := by decide
theorem test_cs_add : fieldOf (·.csAcc) (exec (.csAdd 0x36) { State.reset with csAcc := 0x00F1 }) = some 0x0127 := by
  decide
theorem test_cs_add_drops_carry :
    fieldOf (·.csAcc) (exec (.csAdd 0x01) { State.reset with csAcc := 0xFFFF }) = some 0 := by decide
theorem test_cs_clear : fieldOf (·.csAcc) (exec .csClear { State.reset with csAcc := 0x0147 }) = some 0 := by decide
theorem test_cs_split :
    fieldOf (fun t => (t.csOut, t.csAcc)) (exec .csSplit { State.reset with csAcc := 0x0147 }) =
      some (some (0x01, 0x47), 0x0147) := by decide
theorem test_sum16_operation : fieldOf (·.sumOut) (exec (.sum16 [0x41, 0xF0]) State.reset) = some (some 0x0131) := by
  decide

/-! ### Unit U2, the encoder (2.2) -/

theorem test_encode_send : encodeTelegram 0xC0 0 54 [0x10, 0x10] = [0xF1, 0x00, 0x36, 0x10, 0x10, 0x01, 0x47] := by decide
theorem test_encode_one : encodeTelegram 0xC0 0 54 [0xAA] = [0xF0, 0x00, 0x36, 0xAA, 0x01, 0xD0] := by decide
theorem test_encode_node : encodeTelegram 0x40 5 71 [] = [0x70, 0x05, 0x47, 0x00, 0xBC] := by decide
theorem test_encode_full :
    encodeTelegram 0xC0 0xFF 0xFF (List.replicate 16 0xFF) = List.replicate 19 0xFF ++ [0x12, 0xED] := by decide
/-- ENCODE on a descriptor (R100): the telegram in TX, its sum left in `cs_acc`. -/
theorem test_encode_operation :
    fieldOf (fun t => (bytesOf t.tx, t.txLen, t.csAcc))
      (exec .encode { State.reset with reqKind := 0xC0, reqObj := 50, reqDlen := 2, req := [(0, 0x32), (1, 0x00)] }) =
      some ([0xF1, 0x00, 0x32, 0x32, 0x00, 0x01, 0x55], 7, 0x0155) := by decide

/-! ### Unit U2, the decoder (2.3) -/

theorem test_verify :
    checksumGood [] = false ∧ checksumGood [0x00] = false ∧ checksumGood [0x00, 0x00] = true ∧
    checksumGood [0x80, 0x00] = false ∧ checksumGood [0x80, 0x00, 0x80] = true ∧ checksumGood ackBytes = true ∧
    checksumGood [0x83, 0x00, 0x02, 0x41, 0xF1, 0x00, 0x00, 0x01, 0xB6] = false := by decide
theorem test_classify :
    classify [0x00, 0x00, 0xFF, 0x05] = .deviceError 5 ∧ classify [0x00, 0xFF, 0x00, 0xFF] = .notStatus ∧
    classify ackBytes = .ack ∧ classify [0x80, 0x00, 0xFF] = .notStatus := by decide
theorem test_verify_operation :
    fieldOf (fun t => (t.fCsMismatch, t.csAcc)) (exec .verifyChecksum (received .check [0x80, 0x00, 0xFF, 0x05, 0x01, 0x85])) =
      some (true, 0x0184) := by decide
theorem test_is_error_operation :
    fieldOf (fun t => (t.fIsStatus, t.fAck, t.fDevError, t.code)) (exec .isError (received .check errorBytes)) =
      some (true, false, true, 5) := by decide
theorem test_rsp_fields :
    fieldOf (·.fieldsOut) (exec .rspFields (received .check floatBytes)) =
      some (some ⟨some 0x83, some 0x00, some 0x02, some [0x41, 0xF0, 0x00, 0x00], some 0x01B6⟩) := by decide
/-- Four bytes: the data part is undefined, the checksum is not. -/
theorem test_rsp_fields_short :
    fieldOf (·.fieldsOut) (exec .rspFields (received .check [0x80, 0x00, 0x32, 0xB2])) =
      some (some ⟨some 0x80, some 0x00, some 0x32, none, some 0x32B2⟩) := by decide
theorem test_response_ack : fieldOf outcome (exec (.rspStatusAck 0x80 0x00 [0x01, 0x7F]) (received .check ackBytes)) =
    some (some .ok) := by decide
theorem test_response_error :
    fieldOf outcome (exec (.rspStatusError 0x80 0x00 5 [0x01, 0x84]) (received .check errorBytes)) =
      some (some (.deviceError 5)) := by decide
/-- Both errors at once: the checksum wins, the class flags stay (2.3). -/
theorem test_response_both :
    fieldOf (fun t => (outcome t, t.fDevError, t.code))
      (exec (.rspStatusError 0x80 0x00 5 [0x01, 0x85]) (received .check [0x80, 0x00, 0xFF, 0x05, 0x01, 0x85])) =
      some (some .checksumMismatch, true, 5) := by decide
theorem test_response_data : fieldOf outcome (exec (.rspData floatBytes) (received .check floatBytes)) = some (some .ok) := by
  decide
/-- One byte, then silence: ChecksumMismatch (2.4). -/
theorem test_response_one_byte :
    fieldOf (fun t => (outcome t, t.csAcc)) (exec (.rspData [0x83]) (received .check [0x83])) =
      some (some .checksumMismatch, 0) := by decide

/-! ### Unit U3 (2.4) -/

theorem test_open : fieldOf (fun t => (t.link, outcome t)) (exec .openLink State.reset) = some (.opened, some .ok) := by decide
theorem test_open_again :
    fieldOf (fun t => (t.link, outcome t)) (exec .openLink closedLink) = some (.closed, some .refused) := by decide
theorem test_close : fieldOf (fun t => (t.link, outcome t)) (exec .closeLink opened) = some (.closed, some .ok) := by decide
theorem test_close_unopened :
    fieldOf (fun t => (t.link, outcome t)) (exec .closeLink State.reset) = some (.unopened, some .notConnected) := by decide
/-- The first test wins: an illegal kind on an unopened link is NotConnected. -/
theorem test_transfer_unopened :
    fieldOf outcome (exec (.transfer 0x80 0 0 (twoLines 0 0)) State.reset) = some (some .notConnected) := by decide
/-- The kind is compared whole, not by bits 7:6. -/
theorem test_transfer_kind : fieldOf outcome (exec (.transfer 0x41 71 0 (twoLines 0 0)) opened) = some (some .refused) := by
  decide
theorem test_query :
    fieldOf (fun t => (bytesOf t.tx, t.phase)) (exec (.query 71 []) opened) =
      some ([0x70, 0x00, 0x47, 0x00, 0xB7], .gap) := by decide
theorem test_send :
    fieldOf (fun t => (bytesOf t.tx, t.phase)) (exec (.send 54 [0x10, 0x10]) opened) =
      some ([0xF1, 0x00, 0x36, 0x10, 0x10, 0x01, 0x47], .gap) := by decide
theorem test_send_too_many : fieldOf outcome (exec (.send 50 (List.replicate 17 0)) opened) = some (some .refused) := by decide
/-- A command presented while the block is busy is neither accepted nor remembered. -/
theorem test_busy : exec (.query 71 []) (inPhase .gap 0) = .next (inPhase .gap 0) := by rfl

/-! ### The framer, one step -/

/-- No gap before the first request (R138). -/
theorem test_gap_not_armed : fieldOf (·.phase) (step (inPhase .gap 0)) = some .tx := by decide
/-- `tx_ready` hands over one byte (R140). -/
theorem test_tx_ready :
    fieldOf (fun t => (t.wireOut, t.txIdx, t.phase)) (step { inPhase .tx 1 with moments := [readyMoment] }) =
      some ([0x00], 2, .tx) := by decide
/-- The last byte ends phase TX (R140). -/
theorem test_tx_last :
    fieldOf (fun t => (t.wireOut, t.phase, t.gapArmed)) (step { inPhase .tx 6 with moments := [readyMoment] }) =
      some ([0x47], .rx, true) := by decide
/-- `tx_fail` beats `tx_ready` and discards what was stored (R141). -/
theorem test_tx_fail :
    fieldOf (fun t => (outcome t, t.wireOut, t.rxLen))
      (step { inPhase .tx 2 with
        rx := [(0, 0x85)], rxLen := 1, moments := [{ readyMoment with txFail := true }] }) =
      some (some .ioError, [], 0) := by decide
/-- A byte that arrives in phase TX is stored (R143). -/
theorem test_byte_in_tx :
    fieldOf (fun t => (t.rx, t.rxLen)) (step { inPhase .tx 0 with moments := [byteMoment 0x85] }) =
      some ([(0, 0x85)], 1) := by decide
/-- A byte that arrives in IDLE is dropped without a trace (R148). -/
theorem test_byte_in_idle :
    step (openedWith [byteMoment 0x85]) = .next { opened with moments := [], momentCount := 1 } := by rfl
/-- The hundredth byte ends the read at once (R144). -/
theorem test_read_full :
    fieldOf (fun t => (t.phase, t.rxLen)) (step { received .rx (List.replicate 99 0x41) with moments := [byteMoment 0x41] }) =
      some (.check, 100) := by
  rw [step_rx (by rfl) (by rfl)]
  have h : readEnded (observe (byteMoment 0x41)
      (dropMoment { received .rx (List.replicate 99 0x41) with moments := [byteMoment 0x41] })) = true := by
    rw [readEnded, Bool.or_eq_true]; exact .inl (by decide)
  have hl : (observe (byteMoment 0x41)
      (dropMoment { received .rx (List.replicate 99 0x41) with moments := [byteMoment 0x41] })).rxLen = 100 := by decide
  show fieldOf _ (moveRx (observe (byteMoment 0x41) _)) = _
  unfold moveRx
  rw [h]
  simp only [if_true, fieldOf, hl]
/-- Nothing received: IoError (R145). -/
theorem test_empty_read : fieldOf outcome (step (received .check [])) = some (some .ioError) := by decide
/-- CHECK reads RX and reports (R146). -/
theorem test_check : fieldOf (fun t => (outcome t, t.phase)) (step (received .check ackBytes)) =
    some (some .ok, .idle) := by decide
/-- A tick at the saturated gap timer changes nothing (2.4, events without effect). -/
theorem test_gap_saturates :
    step { opened with gapTimer := Config.gapTicks, moments := [tickMoment] } =
      .next { opened with gapTimer := Config.gapTicks, moments := [], momentCount := 1 } := by
  show Host.Outcome.next (tickTimers { opened with gapTimer := Config.gapTicks, moments := [], momentCount := 1 }) = _
  simp [tickTimers, readTimerRuns, opened, State.reset]
/-- Reset from CLOSED (R220); what was sent stays sent. -/
theorem test_reset :
    fieldOf (fun t => (t.link, t.wireOut))
      (step { closedLink with wireOut := [0x70], moments := [{ Moment.quiet with reset := true }] }) =
      some (.unopened, [0x70]) := by decide

/-- `tx_data` in phase TX, and none outside it (R30). -/
theorem test_tx_data : txData (inPhase .tx 2) = .ok 0x36 ∧ txData opened = .error .txDataNotValid := by decide

/-! ### The host's side -/

/-- A host reads RX only at `done = 1` and below `rx_len` (R29, R49). -/
theorem test_host_reads :
    hostRx 1 { received .idle ackBytes with done := true } = .ok 0x00 ∧
    hostRx 6 { received .idle ackBytes with done := true } = .error (.noValue .rx 6) ∧
    hostRx 1 (received .idle ackBytes) = .error .resultNotReady := by decide
/-- Accessor results of section 2.3. -/
theorem test_accessors :
    readFloatBytes floatBytes = some [0x41, 0xF0, 0x00, 0x00] ∧
    readInteger [0x81, 0x00, 0x32, 0x32, 0x00, 0x00, 0xE5] = some 12800 ∧
    readText [0x86, 0x00, 0x08, 0x41, 0x43, 0x4D, 0x45, 0x00, 0x01, 0xA4] = some [0x41, 0x43, 0x4D, 0x45] := by decide
/-- `set_binary(54, 0x10, 0x10)` (S7). -/
theorem test_remote : remoteRequest true = .send 54 [0x10, 0x10] := by decide

/-- `set_voltage(15.0)` with nominal voltage 30.0 writes 12800 (S8). -/
theorem test_set_voltage : setpointRequest 50 30 15 = .ok (.send 50 [0x32, 0x00]) := by
  have h : physicalToRaw 30 15 = .ok 12800 := by
    have e : (15 * 25600 / 30 : Rat) = ((12800 : Int) : Rat) := by norm_num
    rw [physicalToRaw, if_neg (by norm_num), e, roundNearest, Rat.floor_intCast, sub_self, if_pos (by norm_num)]
  rw [setpointRequest, h]
  decide
/-- A setpoint without a nominal rating is DivisionGuard (R180). -/
theorem test_division_guard : setpointRequest 50 0 15 = .error .divisionGuard := by
  rw [setpointRequest, physicalToRaw, if_pos rfl]

/-! ### States that meet the invariant -/

/-- `SEND 54, [0x10, 0x10]` has ended with the device error of S6. -/
def finished : State :=
  { received .idle errorBytes with done := true, fIsStatus := true, fDevError := true, code := 5, csAcc := 0x0184 }

/-- The link was open and QUERY was refused for want of it. -/
def notConnected : State := { State.reset with done := true, fNotConnected := true }

theorem inv_opened : Inv opened where
  buffers := ⟨rfl, rfl, rfl, by decide, by decide, by decide, by decide⟩
  timers := ⟨Nat.zero_le _, Nat.zero_le _⟩
  inFlight h := absurd rfl h
  wire := ⟨nofun, nofun, nofun⟩
  results := nofun
  fresh _ := rfl

theorem inv_notConnected : Inv notConnected where
  buffers := ⟨rfl, rfl, rfl, by decide, by decide, by decide, by decide⟩
  timers := ⟨Nat.zero_le _, Nat.zero_le _⟩
  inFlight h := absurd rfl h
  wire := ⟨nofun, nofun, nofun⟩
  results _ := ⟨rfl, rfl, nofun, by decide, nofun, nofun⟩
  fresh := nofun

theorem inv_sending : Inv (inPhase .tx 0) where
  buffers := ⟨rfl, rfl, rfl, by decide, by decide, by decide, by decide⟩
  timers := ⟨Nat.zero_le _, Nat.zero_le _⟩
  inFlight _ := ⟨rfl, rfl, rfl, rfl, by decide⟩
  wire := ⟨nofun, fun _ => ⟨by decide, List.nil_suffix⟩, by rintro (h | h) <;> cases h⟩
  results := nofun
  fresh _ := rfl

theorem inv_received (r : List Byte) (h : r.length ≤ 100) (p : Phase) (hp : p = .rx ∨ p = .check) :
    Inv (received p r) where
  buffers := ⟨rfl, rfl, filledTo_cellsFrom r, (by decide : 2 ≤ 16), (by decide : 7 = 0 ∨ 5 ≤ 7 ∧ 7 ≤ 21), (by decide : 7 ≤ 21), h⟩
  timers := ⟨Nat.zero_le _, Nat.zero_le _⟩
  inFlight _ := ⟨rfl, rfl, rfl, rfl, inv_sending.inFlight (by decide) |>.telegram⟩
  wire := by
    refine ⟨fun h => ?_, fun h => ?_, fun _ => ⟨rfl, rfl, ⟨[], rfl⟩⟩⟩ <;>
      (change p = _ at h; subst h; rcases hp with h | h <;> cases h)
  results := nofun
  fresh _ := rfl

theorem inv_finished : Inv finished where
  buffers := ⟨rfl, rfl, rfl, by decide, by decide, by decide, by decide⟩
  timers := ⟨Nat.zero_le _, Nat.zero_le _⟩
  inFlight h := absurd rfl h
  wire := ⟨nofun, nofun, by rintro (h | h) <;> cases h⟩
  results _ := ⟨rfl, by decide, fun _ => by decide, nofun, nofun, nofun⟩
  fresh := nofun

/-! ### Witnesses: for every statement with hypotheses, and every clause, something that meets them -/

/-- A moment with the reset signal. -/
def resetMoment : Moment := { Moment.quiet with reset := true }

theorem witness_resetSignal : (nextMoment (openedWith [resetMoment])).reset = true := by decide
theorem witness_presentedCommand :
    (openedWith [commandMoment .closeLink]).phase = .idle ∧
    (nextMoment (openedWith [commandMoment .closeLink])).reset = false ∧
    (nextMoment (openedWith [commandMoment .closeLink])).command = some .closeLink := by decide
theorem witness_responseClass :
    (received .check ackBytes).phase = .check ∧ (nextMoment (received .check ackBytes)).reset = false ∧
    response (observe (nextMoment (received .check ackBytes)) (dropMoment (received .check ackBytes))) = .ok ackBytes ∧
    decodeResponse ackBytes = .ok (.rspStatusAck 0x80 0x00 [0x01, 0x7F]) := by decide
theorem witness_tableWord : decodeTableWord 8 0x7F = some (.query 0 (List.replicate 16 0)) := by decide
theorem witness_decodeInvertsEncode :
    (Instr.send 54 (List.replicate 16 0)).wellFormed = true ∧
    encode (.send 54 (List.replicate 16 0)) = some (encodeTelegram 0xC0 0 54 (List.replicate 16 0)) := by decide
theorem witness_decodeInvertsEncode_response :
    (Instr.rspData floatBytes).wellFormed = true ∧ encode (.rspData floatBytes) = some floatBytes := by decide
theorem witness_nonemptyResponse : [(0x83 : Byte)] ≠ [] ∧ [(0x83 : Byte)].length ≤ Config.rxBufSize := by decide
theorem witness_intactRequest :
    decodeRequest [0x70, 0x00, 0x47, 0x00, 0xB7] = .ok (.query 71 []) ∧
    checksumGood [0x70, 0x00, 0x47, 0x00, 0xB7] = true := by decide
theorem witness_sixteenBytes : (16 : BitVec 5).toNat ≤ 16 ∧ (List.replicate 16 (0 : Byte)).length ≤ 16 := by decide
theorem witness_permuted : ([0x41, 0xF0] : List Byte).Perm [0xF0, 0x41] := List.Perm.swap _ _ _
theorem witness_longest : (List.replicate 100 (0xFF : Byte)).length ≤ 100 ∧ 257 ≤ 257 := by decide
theorem witness_flippedBit : 5 < ackBytes.length ∧ 7 < 8 ∧ checksumGood ackBytes = true := by decide
theorem witness_encodedRequest :
    ([0xAA] : List Byte) ≠ [] ∧ legalKind 0x40 = true ∧ legalKind 0xC0 = true ∧
    encodeTelegram 0x40 0 71 [] = encodeTelegram 0x40 0 71 [] := by decide
theorem witness_encodeWrites :
    ((inPhase .gap 0).reqKind = 0x40 ∨ (inPhase .gap 0).reqKind = 0xC0) ∧ (inPhase .gap 0).reqDlen ≤ 16 ∧
    requestData (inPhase .gap 0) = .ok [0x10, 0x10] := by decide
theorem witness_encodeRefuses_kind : (State.reset.reqKind ≠ 0x40 ∧ State.reset.reqKind ≠ 0xC0) := by decide
theorem witness_encodeRefuses_length : 16 < ({ State.reset with reqKind := 0x40, reqDlen := 17 } : State).reqDlen := by decide
theorem witness_response :
    response (received .check floatBytes) = .ok floatBytes ∧ response (received .check []) = .ok [] := by decide
theorem witness_response_status : ackBytes = 0x80 :: 0x00 :: 0xFF :: 0x00 :: [0x01, 0x7F] := by decide
theorem witness_response_notStatus :
    ∀ a b c tail, ([0x00, 0x00, 0xFF] : List Byte) ≠ a :: b :: 0xFF :: c :: tail := by intros; simp
theorem witness_fields :
    ([0x80, 0x00, 0x32, 0xB2] : List Byte).length < 5 ∧ ([0x83] : List Byte).length < 2 ∧
    ([0x80, 0x00, 0x32, 0x00, 0xB2] : List Byte) = 0x80 :: 0x00 :: 0x32 :: ([] ++ [0x00, 0xB2]) ∧
    ([0x00, 0x00] : List Byte) = [] ++ [0x00, 0x00] := by decide
theorem witness_responseClasses :
    (received .check errorBytes).phase = .check ∧ (5 : Byte) ≠ 0 ∧ (Instr.rspData [0x83]).wellFormed = true ∧
    (Instr.rspData (List.replicate 100 0x41)).wellFormed = true := by decide
theorem witness_eitherOrder :
    (received .check errorBytes).phase = .check ∧ response (received .check errorBytes) = .ok errorBytes ∧
    decodeResponse errorBytes = .ok (.rspStatusError 0x80 0x00 5 [0x01, 0x84]) := by decide
theorem witness_headerBytes :
    2 ≤ ([0x00, 0x80] : List Byte).length ∧ (0x80 : Byte).toNat + (0x00 : Byte).toNat = (0x7F : Byte).toNat + (0x01 : Byte).toNat := by
  decide
theorem witness_acceptance :
    opened.phase = .idle ∧ ∃ t, exec (decodeCommand .closeLink) opened = .next t := ⟨rfl, _, rfl⟩
theorem witness_links :
    State.reset.phase = .idle ∧ State.reset.link = .unopened ∧ opened.phase = .idle ∧ opened.link = .opened ∧
    closedLink.phase = .idle ∧ closedLink.link ≠ .unopened ∧ closedLink.link ≠ .opened := by decide
theorem witness_refusedTransfer :
    opened.link = .opened ∧ ((0x80 : Byte) ≠ 0x40 ∧ (0x80 : Byte) ≠ 0xC0) ∧ 16 < (17 : BitVec 5).toNat ∧
    16 < (List.replicate 17 (0 : Byte)).length := by decide
theorem witness_acceptedTransfer :
    opened.phase = .idle ∧ opened.link = .opened ∧ ((0xC0 : Byte) = 0x40 ∨ (0xC0 : Byte) = 0xC0) ∧
    (16 : BitVec 5).toNat ≤ 16 ∧ (0 : BitVec 5).toNat ≤ 16 := by decide
theorem witness_busy : (inPhase .gap 0).phase ≠ .idle ∧ (received .check ackBytes).phase ≠ .idle := by decide
theorem witness_outOfPhase :
    (inPhase .gap 0).phase ≠ .check ∧ decodeResponse ackBytes = .ok (.rspStatusAck 0x80 0x00 [0x01, 0x7F]) := by decide
theorem witness_missingBytes :
    State.reset.rx.read 99 = none ∧ 99 < Space.rx.size ∧ Space.rx.size ≤ 100 ∧
    0 < ({ State.reset with rxLen := 1 } : State).rxLen ∧ ({ State.reset with rxLen := 1 } : State).rx.read 0 = none ∧
    100 < ({ State.reset with rxLen := 101 } : State).rxLen ∧
    15 < ({ State.reset with reqKind := 0x40, reqDlen := 16 } : State).reqDlen ∧
    ({ State.reset with reqKind := 0x40, reqDlen := 16 } : State).req.read 15 = none ∧
    exec .isError { State.reset with rxLen := 1 } = .fault (.noValue .rx 0) ∧
    exec .encode { State.reset with reqKind := 0x40, reqDlen := 16 } = .fault (.noValue .req 0) := by
  refine ⟨rfl, by decide, by decide, by decide, rfl, by decide, by decide, rfl, rfl, rfl⟩
theorem witness_gap :
    (inPhase .gap 0).phase = .gap ∧ (nextMoment (inPhase .gap 0)).reset = false ∧ (inPhase .gap 0).gapArmed = false := by
  decide
theorem witness_gap_waits :
    ∃ s : State, s.phase = .gap ∧ (nextMoment s).reset = false ∧ s.gapArmed = true ∧
      ∃ t, step s = .next t ∧ t.gapTimer < Config.gapTicks := by
  refine ⟨{ inPhase .gap 0 with gapArmed := true }, rfl, rfl, rfl,
    { inPhase .gap 0 with gapArmed := true, moments := [], momentCount := 1 }, ?_, gapTicks_pos⟩
  refine if_neg ?_
  rw [gapElapsed, Bool.or_eq_true, decide_eq_true_eq]
  rintro (h | h)
  · cases h
  · exact absurd gapTicks_pos (Nat.not_lt.2 h)
theorem witness_handOver :
    ({ inPhase .tx 6 with moments := [readyMoment] } : State).phase = .tx ∧
    (nextMoment { inPhase .tx 6 with moments := [readyMoment] }).reset = false ∧
    (nextMoment { inPhase .tx 6 with moments := [readyMoment] }).txReady = true ∧
    (nextMoment { inPhase .tx 6 with moments := [readyMoment] }).txFail = false ∧
    readByte .tx 6 { inPhase .tx 6 with moments := [readyMoment] } = .ok 0x47 ∧
    readByte .tx 5 { inPhase .tx 5 with moments := [readyMoment] } = .ok 0x01 := by decide
theorem witness_failedWrite :
    ({ inPhase .tx 2 with moments := [{ readyMoment with txFail := true }] } : State).phase = .tx ∧
    (nextMoment { inPhase .tx 2 with moments := [{ readyMoment with txFail := true }] }).reset = false ∧
    (nextMoment { inPhase .tx 2 with moments := [{ readyMoment with txFail := true }] }).txFail = true := by decide
theorem witness_stored :
    (inPhase .tx 0).phase = .tx ∧ (inPhase .tx 0).rxLen < 100 ∧
    ((received .rx (List.replicate 99 0x41)).phase = .rx ∧ (received .rx (List.replicate 99 0x41)).rxLen < 100) ∧
    ¬ (received .rx (List.replicate 100 0x41)).rxLen < 100 ∧ ¬ (opened.phase = .tx ∨ opened.phase = .rx) := by decide
theorem witness_read :
    (received .rx floatBytes).phase = .rx ∧ (nextMoment (received .rx floatBytes)).reset = false := by decide
/-- The read's ending by the timer, and the tick that counts. -/
theorem witness_read_timer :
    readEnded { received .rx floatBytes with rxTimer := Config.timeoutTicks } = true ∧
    (received .rx floatBytes).rxLen ≠ 100 ∧ (received .rx floatBytes).rxTimer < Config.timeoutTicks := by
  refine ⟨by rw [readEnded, Bool.or_eq_true]; exact .inr (decide_eq_true rfl), by decide, ?_⟩
  exact timeoutTicks_pos
theorem witness_emptyRead :
    (received .check []).phase = .check ∧ (received .check []).rxLen = 0 ∧ (nextMoment (received .check [])).reset = false := by
  decide
theorem witness_ticks :
    ({ opened with gapTimer := Config.gapTicks } : State).gapTimer = Config.gapTicks ∧ opened.phase ≠ .rx ∧
    (received .rx floatBytes).phase = .rx := ⟨rfl, by decide, rfl⟩
theorem witness_outcomes :
    State.reset.done = false ∧ notConnected.done = true ∧ notConnected.fNotConnected = true ∧
    finished.done = true ∧ finished.fNotConnected = false ∧ finished.fRefused = false ∧ finished.fIoError = false ∧
    finished.fCsMismatch = false ∧ finished.fDevError = true := by decide
/-- A quiet moment in phase TX, and one with a byte where RX has room and where it has none. -/
theorem witness_tx_quiet :
    (inPhase .tx 2).phase = .tx ∧ (nextMoment (inPhase .tx 2)).reset = false ∧
    (nextMoment (inPhase .tx 2)).txFail = false ∧ (nextMoment (inPhase .tx 2)).txReady = false ∧
    (nextMoment { inPhase .tx 2 with moments := [byteMoment 0x85] }).received = some 0x85 ∧
    (inPhase .tx 2).rxLen < 100 ∧ ¬ ({ inPhase .tx 2 with rxLen := 100 } : State).rxLen < 100 := by decide
theorem witness_placedSignals : (openedWith [byteMoment 0x85]).moments = byteMoment 0x85 :: [] := rfl
theorem witness_bothChecks (r : List Byte) (h : 0 < r.length ∧ r.length ≤ 100) :
    Inv (received .check r) ∧ (received .check r).phase = .check ∧ 0 < (received .check r).rxLen ∧
    (nextMoment (received .check r)).reset = false := ⟨inv_received r h.2 _ (.inr rfl), rfl, h.1, rfl⟩
theorem witness_outcomes_other :
    ({ State.reset with done := true, fRefused := true } : State).fNotConnected = false ∧
    ({ State.reset with done := true, fIoError := true } : State).fRefused = false ∧
    ({ State.reset with done := true, fCsMismatch := true } : State).fIoError = false ∧
    ({ State.reset with done := true } : State).fDevError = false := by decide
theorem witness_finished : Inv finished ∧ finished.done = true ∧ (3 : Nat) < finished.rxLen ∧ finished.rxLen ≤ 6 :=
  ⟨inv_finished, rfl, by decide, by decide⟩
theorem witness_notConnected : Inv notConnected ∧ notConnected.done = true ∧ notConnected.fNotConnected = true :=
  ⟨inv_notConnected, rfl, rfl⟩
theorem witness_resultsStay :
    finished.phase = .idle ∧ (nextMoment finished).reset = false ∧ (nextMoment finished).command = none := by decide
theorem witness_everyStep : Inv opened ∧ step opened = .next { opened with moments := [], momentCount := 1 } :=
  ⟨inv_opened, rfl⟩
theorem witness_neverStops : Inv (received .check floatBytes) := inv_received _ (by decide) _ (.inr rfl)
theorem witness_phaseChange :
    ∃ t, step (inPhase .gap 0) = .next t ∧ (nextMoment (inPhase .gap 0)).reset = false ∧ t.phase ≠ (inPhase .gap 0).phase :=
  ⟨_, rfl, rfl, by decide⟩
theorem witness_linkChange :
    ∃ t, step (openedWith [commandMoment .closeLink]) = .next t ∧ t.link ≠ (openedWith [commandMoment .closeLink]).link :=
  ⟨_, rfl, by decide⟩
theorem witness_wireGrows :
    ∃ t, step { inPhase .tx 0 with moments := [readyMoment] } = .next t ∧ t.wireOut ≠ (inPhase .tx 0).wireOut :=
  ⟨_, rfl, by decide⟩
theorem witness_requestFixed :
    (∃ t, step (inPhase .gap 0) = .next t) ∧ (nextMoment (inPhase .gap 0)).reset = false ∧
    ¬ ((inPhase .gap 0).phase = .idle ∧ (inPhase .gap 0).link = .opened) :=
  ⟨⟨_, rfl⟩, rfl, by decide⟩
/-- An IDLE step that accepts a TRANSFER of an illegal kind on an open link: nothing is latched. -/
theorem witness_requestFixed_idle :
    (∃ t, step (openedWith [commandMoment (.transfer 0x80 0 0 (twoLines 0 0))]) = .next t) ∧
    (nextMoment (openedWith [commandMoment (.transfer 0x80 0 0 (twoLines 0 0))])).reset = false ∧
    (openedWith []).phase = .idle ∧ (openedWith []).link = .opened ∧ ¬ ((0x80 : Byte) = 0x40 ∨ (0x80 : Byte) = 0xC0) :=
  ⟨⟨_, rfl⟩, rfl, by decide⟩
theorem witness_wholeTelegram :
    ∃ s : State, Inv s ∧ s.phase = .tx ∧ s.txIdx = 0 ∧ s.moments = List.replicate s.txLen readyMoment ++ [] :=
  ⟨{ inPhase .tx 0 with moments := List.replicate 7 readyMoment }, inv_withMoments inv_sending _ 0, rfl, rfl, rfl⟩
theorem witness_arrivingBytes :
    ∃ (s : State) (w : List Byte), Inv s ∧ s.phase = .rx ∧ s.rxTimer ≠ Config.timeoutTicks ∧ w ≠ [] ∧
      s.rxLen + w.length ≤ 100 ∧ s.moments = w.map byteMoment ++ [] := by
  refine ⟨{ received .rx floatBytes with moments := ackBytes.map byteMoment }, ackBytes,
    inv_withMoments (inv_received floatBytes (by decide) .rx (.inl rfl)) _ 0, rfl, ?_, by decide, by decide, rfl⟩
  exact timeoutTicks_pos.ne
theorem witness_transfer :
    ∃ (s : State) (kind obj : Byte) (dlen : BitVec 5) (data : Vector Byte 16) (w : List Byte),
      Inv s ∧ s.phase = .idle ∧ s.link = .opened ∧ (s.gapArmed = false ∨ s.gapTimer = Config.gapTicks) ∧
      (kind = 0x40 ∨ kind = 0xC0) ∧ dlen.toNat ≤ 16 ∧ w.length < 100 ∧
      s.moments = commandMoment (.transfer kind obj dlen data) :: .quiet ::
        (List.replicate (5 + dlen.toNat) readyMoment ++ (w.map byteMoment ++
          (List.replicate Config.timeoutTicks tickMoment ++ [.quiet]))) :=
  ⟨openedWith _, 0xC0, 54, 2, twoLines 0x10 0x10, errorBytes, inv_withMoments inv_opened _ 0, rfl, rfl, .inl rfl, .inr rfl,
    by decide, by decide, rfl⟩

end Sys2Proof.Tests
end

section
/-!
PROOFS. The family of spec/10_state.md: what reset holds (R36), how the outcome is read (R16), who writes `link` (R17).
-/

namespace Sys2Proof.Machine

/-! ### Reset -/

@[simp] theorem reset_buffer (sp : Space) : State.reset.buffer sp = [] := by cases sp <;> rfl

/-- Settles O1: the registers by evaluation, the buffers because each of them is empty. -/
theorem resetHoldsTheSpecValues : Obligations.ResetHoldsTheSpecValues := by
  unfold Obligations.ResetHoldsTheSpecValues
  have noByte (sp : Space) (a : Nat) : (State.reset.buffer sp).read a = none := by
    rw [reset_buffer, memory_read_nil]
  exact ⟨rfl, rfl, rfl, rfl, rfl, rfl, rfl, rfl, rfl, rfl, rfl, rfl, rfl, rfl, rfl, rfl, rfl, rfl, rfl, rfl, rfl, rfl,
    noByte⟩

/-! ### The outcome -/

/-- Settles O44: one clause per test of the chain, each under the tests before it. -/
theorem outcomeFollowsThePriority : Obligations.OutcomeFollowsThePriority := by
  unfold Obligations.OutcomeFollowsThePriority
  intro s
  refine ⟨?notDone, ?notConnected, ?refused, ?ioError, ?checksumMismatch, ?deviceError, ?ok⟩
  case notDone => intro hd; simp [outcome, hd]
  case notConnected => intro hd h1; simp [outcome, hd, h1]
  case refused => intro hd h1 h2; simp [outcome, hd, h1, h2]
  case ioError => intro hd h1 h2 h3; simp [outcome, hd, h1, h2, h3]
  case checksumMismatch => intro hd h1 h2 h3 h4; simp [outcome, hd, h1, h2, h3, h4]
  case deviceError => intro hd h1 h2 h3 h4 h5; simp [outcome, hd, h1, h2, h3, h4, h5]
  case ok => intro hd h1 h2 h3 h4 h5; simp [outcome, hd, h1, h2, h3, h4, h5]

/-! ### OPEN and CLOSE, case by case (R132, R133) -/

theorem execOpen_unopened {s : State} (hp : s.phase = .idle) (hl : s.link = .unopened) :
    execOpen s = .next (completeCommand { acceptCommand s with link := .opened, gapArmed := false }) := by
  simp [execOpen, ifReady, hp, hl]

theorem execOpen_refused {s : State} (hp : s.phase = .idle) (hl : s.link ≠ .unopened) :
    execOpen s = .next (raiseError .refused (acceptCommand s)) := by
  simp [execOpen, ifReady, hp, hl]

theorem execClose_opened {s : State} (hp : s.phase = .idle) (hl : s.link = .opened) :
    execClose s = .next (completeCommand { acceptCommand s with link := .closed }) := by
  simp [execClose, ifReady, hp, hl]

theorem execClose_notConnected {s : State} (hp : s.phase = .idle) (hl : s.link ≠ .opened) :
    execClose s = .next (raiseError .notConnected (acceptCommand s)) := by
  simp [execClose, ifReady, hp, hl]

/-- The sixteen data lines hold all the bytes of a legal length (R28). -/
theorem length_presentedData {n : Nat} (data : Vector Byte 16) (h : n ≤ Config.maxTxData) :
    (data.toList.take n).length = n := by
  simpa [Config.maxTxData] using h

/-- A presented TRANSFER is carried out as `transferCommand`, whichever of TRANSFER, QUERY and SEND it decodes to
(R101, R102). -/
theorem exec_decodedTransfer (kind obj : Byte) (dlen : BitVec 5) (data : Vector Byte 16) (s : State) :
    exec (decodeCommand (.transfer kind obj dlen data)) s =
      transferCommand kind obj dlen.toNat (data.toList.take dlen.toNat) s := by
  simp only [decodeCommand]
  split_ifs with hq hs
  · obtain ⟨hd, rfl⟩ := hq
    simp only [exec, execQuery, length_presentedData data hd]
  · obtain ⟨hd, rfl⟩ := hs
    simp only [exec, execSend, length_presentedData data hd]
  · rfl

/-! ### What leaves `link` alone -/

@[simp] theorem raiseError_link (k : ErrorKind) (s : State) : (raiseError k s).link = s.link := by cases k <;> rfl

@[simp] theorem setClass_link (c : ResponseClass) (s : State) : (setClass c s).link = s.link := by cases c <;> rfl

@[simp] theorem verifyResponse_link (r : List Byte) (s : State) : (verifyResponse r s).link = s.link := by
  rw [verifyResponse_eq]

@[simp] theorem handOver_link (b : Byte) (s : State) : (handOver b s).link = s.link := by
  simp only [handOver]; split <;> rfl

theorem transferCommand_link {kind obj : Byte} {dlen : Nat} {data : List Byte} {s t : State}
    (hlen : dlen ≤ Config.maxTxData → data.length ≤ Config.maxTxData)
    (h : transferCommand kind obj dlen data s = .next t) : t.link = s.link := by
  obtain ⟨-, e⟩ | ⟨-, -, e⟩ | ⟨-, -, -, e⟩ | ⟨-, -, -, -, e⟩ := transferCommand_cases kind obj dlen data s hlen <;>
    (rw [e] at h; cases h; simp)

theorem moveGap_link {s t : State} (h : moveGap s = .next t) : t.link = s.link := by
  unfold moveGap at h
  split at h <;> cases h <;> rfl

theorem moveTx_link {ready fail : Bool} {s t : State} (h : moveTx ready fail s = .next t) : t.link = s.link := by
  unfold moveTx at h
  split_ifs at h
  · cases h; rfl
  · cases hb : readByte .tx s.txIdx s with
    | ok b => rw [hb] at h; cases h; simp
    | error f => rw [hb] at h; cases h
  · cases h; rfl

theorem moveRx_link {s t : State} (h : moveRx s = .next t) : t.link = s.link := by
  unfold moveRx at h
  split at h <;> cases h <;> rfl

theorem moveCheck_link {s t : State} (hp : s.phase = .check) (h : moveCheck s = .next t) : t.link = s.link := by
  cases hr : response s with
  | ok r =>
    rw [moveCheck_eq hp hr] at h
    split at h <;> cases h <;> simp
  | error f => simp [moveCheck, hr, withRead] at h

/-- Outside phase IDLE no move of the framer writes `link`. -/
theorem move_link_busy {m : Moment} {s t : State} (hp : s.phase ≠ .idle) (h : move m s = .next t) :
    t.link = s.link := by
  cases hq : s.phase <;> simp only [move, hq] at h
  case idle => exact absurd hq hp
  case gap => exact moveGap_link h
  case tx => exact moveTx_link h
  case rx => exact moveRx_link h
  case check => exact moveCheck_link hq h

/-- What phase IDLE can do to `link` (R17): OPEN opens an unopened one, CLOSE closes an open one, nothing else writes it. -/
theorem moveIdle_link_cases {c : Option HostCommand} {s t : State} (hp : s.phase = .idle)
    (h : moveIdle c s = .next t) :
    t.link = s.link ∨
    (c = some .openLink ∧ s.link = .unopened ∧ t.link = .opened) ∨
    (c = some .closeLink ∧ s.link = .opened ∧ t.link = .closed) := by
  match c with
  | none => cases h; exact .inl rfl
  | some .openLink =>
    replace h : execOpen s = .next t := h
    by_cases hl : s.link = .unopened
    · rw [execOpen_unopened hp hl] at h
      cases h; exact .inr (.inl ⟨rfl, hl, rfl⟩)
    · rw [execOpen_refused hp hl] at h
      cases h; exact .inl (by simp)
  | some .closeLink =>
    replace h : execClose s = .next t := h
    by_cases hl : s.link = .opened
    · rw [execClose_opened hp hl] at h
      cases h; exact .inr (.inr ⟨rfl, hl, rfl⟩)
    · rw [execClose_notConnected hp hl] at h
      cases h; exact .inl (by simp)
  | some (.transfer kind obj dlen data) =>
    rw [moveIdle, exec_decodedTransfer] at h
    exact .inl (transferCommand_link (fun hd => (length_presentedData data hd).trans_le hd) h)

/-- Settles O53: a reset, a busy move, which keeps `link`, or a move in IDLE. -/
theorem linkChangesOnlyByOpenCloseReset : Obligations.LinkChangesOnlyByOpenCloseReset := by
  unfold Obligations.LinkChangesOnlyByOpenCloseReset
  intro s t h hne
  cases hr : (nextMoment s).reset with
  | true =>
    rw [step_reset hr] at h
    cases h
    exact .inl ⟨rfl, rfl⟩
  | false =>
    by_cases hp : s.phase = .idle
    · rw [step_idle hr hp] at h
      have hidle := moveIdle_link_cases (by simpa using hp) h
      simp only [observe_link, dropMoment_link] at hidle
      obtain e | ⟨hc, hs, ht⟩ | ⟨hc, hs, ht⟩ := hidle
      · exact absurd e hne
      · exact .inr (.inl ⟨hp, hc, hs, ht⟩)
      · exact .inr (.inr ⟨hp, hc, hs, ht⟩)
    · rw [step_move hr] at h
      have e := move_link_busy (by simpa using hp) h
      simp only [observe_link, dropMoment_link] at e
      exact absurd e hne

end Sys2Proof.Machine
end

section
/-!
PROOFS. The family of spec/30_encoding.md: where the start delimiter holds KIND, the constant and LEN (R62, R63).
-/

namespace Sys2Proof.Machine

/-- A start delimiter read as bits 7:4 and LEN (R62). -/
theorem toNat_eq_delimiterHigh_delimiterLen (sd : Byte) :
    sd.toNat = 16 * (delimiterHigh sd).toNat + (delimiterLen sd).toNat := by
  have := sd.isLt
  simp only [delimiterHigh, delimiterLen, BitVec.extractLsb'_toNat, Nat.shiftRight_eq_div_pow]
  omega

/-- Settles O16: the two nibbles of each legal start delimiter, and the byte they make. -/
theorem startDelimiterHasTheBitLayout : Obligations.StartDelimiterHasTheBitLayout := by
  unfold Obligations.StartDelimiterHasTheBitLayout
  intro n hn
  obtain ⟨queryHigh, queryLen⟩ := startDelimiter_nibbles (kind := 0x40) rfl hn
  obtain ⟨sendHigh, sendLen⟩ := startDelimiter_nibbles (kind := 0xC0) rfl hn
  refine ⟨?_, ?_, queryHigh, sendHigh, queryLen, sendLen⟩
  · rw [toNat_eq_delimiterHigh_delimiterLen, queryHigh, queryLen]; rfl
  · rw [toNat_eq_delimiterHigh_delimiterLen, sendHigh, sendLen]; rfl

end Sys2Proof.Machine
end

section
/-!
PROOFS. The family of spec/40_checksum.md: U1's instructions (R90, R91, R93), SUM16 (R92), its bounds (R94) and what one
changed byte does to a checksum (R95).
-/

namespace Sys2Proof.Machine

/-! ### U1's instructions, case by case -/

theorem exec_csClear (s : State) : exec .csClear s = .next (clearSum s) := rfl

theorem exec_csAdd (b : Byte) (s : State) : exec (.csAdd b) s = .next (addToSum b s) := rfl

theorem exec_sum16 (bs : List Byte) (s : State) : exec (.sum16 bs) s = .next { s with sumOut := some (sum16 bs) } := rfl

theorem exec_csSplit (s : State) : exec .csSplit s = .next (splitSum s) := rfl

/-- One CS_ADD in numbers: an unsigned byte, the carry dropped (R91). -/
theorem addByte_toNat (acc : Word) (b : Byte) : (addByte acc b).toNat = (acc.toNat + b.toNat) % 65536 := by
  simpa using foldl_addByte_toNat [b] acc

/-- Settles O12: each instruction is its operation on the accumulator, read in numbers. -/
theorem accumulatorOperations : Obligations.AccumulatorOperations := by
  unfold Obligations.AccumulatorOperations
  refine ⟨exec_csClear, fun b s => ?add, fun s => ?split⟩
  case add => exact ⟨addByte s.csAcc b, addByte_toNat s.csAcc b, exec_csAdd b s⟩
  case split => exact ⟨hi8 s.csAcc, lo8 s.csAcc, hi8_toNat s.csAcc, lo8_toNat s.csAcc, exec_csSplit s⟩

/-! ### SUM16 -/

/-- CS_ADD of each byte, run one after the other, never stops. -/
theorem execAll_csAdd (bs : List Byte) (s : State) : execAll (bs.map Instr.csAdd) s = .next (addAllToSum bs s) := by
  induction bs generalizing s with
  | nil => rfl
  | cons b bs ih => simp only [List.map_cons, execAll, exec_csAdd, andThen, ih, addAllToSum]

/-- CS_CLEAR before them makes the accumulator SUM16 (R92). -/
theorem execAll_csClear_csAdd (bs : List Byte) (s : State) :
    execAll (.csClear :: bs.map Instr.csAdd) s = .next { s with csAcc := sum16 bs } := by
  simp only [execAll, exec_csClear, andThen, execAll_csAdd, addAllToSum_eq]
  rfl

/-- SUM16 does not see the order of the bytes, since the integer sum does not (R92). -/
theorem sum16_eq_of_perm {bs cs : List Byte} (h : bs.Perm cs) : sum16 bs = sum16 cs := by
  apply BitVec.eq_of_toNat_eq
  rw [sum16_toNat, sum16_toNat, (h.map BitVec.toNat).sum_eq]

/-- Settles O13: the recursion is one CS_ADD, the rest follows from the integer sum and from U1's instructions. -/
theorem sumFollowsItsDefinition : Obligations.SumFollowsItsDefinition := by
  unfold Obligations.SumFollowsItsDefinition
  refine ⟨sum16_nil, fun bs b => ?_, sum16_toNat, fun _ _ => sum16_eq_of_perm, exec_sum16, execAll_csClear_csAdd⟩
  rw [sum16_append_one]
  exact addByte_toNat (sum16 bs) b

/-! ### No wrap -/

/-- Up to 257 bytes SUM16 is the integer sum itself: `257 * 255 = 65535` (R94). -/
theorem sum16_toNat_eq_sum {bs : List Byte} (h : bs.length ≤ 257) : (sum16 bs).toNat = (bs.map BitVec.toNat).sum := by
  have := byte_sum_le bs
  rw [sum16_toNat, Nat.mod_eq_of_lt (by omega)]

/-- The bound that goes with it: `n` bytes sum to at most `255 * n`. -/
theorem sum16_toNat_le {bs : List Byte} {n : Nat} (h : bs.length ≤ n) (hn : n ≤ 257) :
    (sum16 bs).toNat ≤ 255 * n := by
  have := byte_sum_le bs
  rw [sum16_toNat_eq_sum (h.trans hn)]
  omega

theorem sum16_replicate_ff_toNat (n : Nat) : (sum16 (List.replicate n 0xFF)).toNat = 255 * n % 65536 := by
  simp [sum16_toNat, Nat.mul_comm]

/-- Settles O14: a request sums at most 19 bytes, a response at most 98, and 258 bytes 0xFF sum to 65790. -/
theorem accumulatorNeverWraps : Obligations.AccumulatorNeverWraps := by
  unfold Obligations.AccumulatorNeverWraps
  refine ⟨fun kind node obj data hd => ?encode, fun r hr => ?verify, fun n hn => ?longest, ?first⟩
  case encode =>
    have hlen : (requestBody kind node obj data).length ≤ 19 := by rw [requestBody_length]; omega
    exact ⟨sum16_toNat_eq_sum (by omega), sum16_toNat_le hlen (by decide)⟩
  case verify =>
    have hlen : (summedPart r).length ≤ 98 := by rw [summedPart, List.length_take]; omega
    exact ⟨sum16_toNat_eq_sum (by omega), sum16_toNat_le hlen (by decide)⟩
  case longest => rw [sum16_replicate_ff_toNat, Nat.mod_eq_of_lt (by omega)]
  case first => exact BitVec.eq_of_toNat_eq (sum16_replicate_ff_toNat 258)

/-! ### One changed byte -/

theorem byte_sum_set {bs : List Byte} {i : Nat} (h : i < bs.length) (c : Byte) :
    ((bs.set i c).map BitVec.toNat).sum =
      ((bs.take i).map BitVec.toNat).sum + c.toNat + ((bs.drop (i + 1)).map BitVec.toNat).sum := by
  simp [List.set_eq_take_append_cons_drop, h, Nat.add_assoc]

/-- Another byte in one place moves the integer sum by less than 256 and not by zero, so SUM16 differs (R95 (b)). -/
theorem sum16_set_ne {bs : List Byte} {i : Nat} {c : Byte} (h : i < bs.length) (hc : c ≠ bs[i]) :
    sum16 (bs.set i c) ≠ sum16 bs := by
  intro e
  have hset := byte_sum_set h c
  have hsum := byte_sum_set h bs[i]
  rw [List.set_getElem_self] at hsum
  have hmod := congrArg BitVec.toNat e
  rw [sum16_toNat, sum16_toNat, hset, hsum] at hmod
  have hne : c.toNat ≠ bs[i].toNat := fun e => hc (BitVec.eq_of_toNat_eq e)
  have := c.isLt
  have := bs[i].isLt
  omega

/-- Two words are equal exactly when both their bytes are. -/
theorem be16_inj {h l h' l' : Byte} : be16 h l = be16 h' l' ↔ h = h' ∧ l = l' := by
  refine ⟨fun e => ⟨?_, ?_⟩, fun ⟨eh, el⟩ => by rw [eh, el]⟩
  · simpa using congrArg hi8 e
  · simpa using congrArg lo8 e

/-- A telegram that verifies does not with another byte in any one place: in a summed byte the sum changes and the carried
checksum stays, in a checksum byte the other way round (R95). -/
theorem checksumGood_set_ne {r : List Byte} {i : Nat} {c : Byte} (hi : i < r.length) (hc : c ≠ r[i])
    (hgood : checksumGood r = true) : checksumGood (r.set i c) = false := by
  have hlen : 2 ≤ r.length := by
    by_contra hshort
    rw [checksumGood_short (by omega)] at hgood
    cases hgood
  obtain ⟨h, l, e, -⟩ := eq_summedPart_append hlen
  generalize summedPart r = body at e
  subst e
  rw [checksumGood_append, decide_eq_true_eq] at hgood
  obtain hbody | rfl | rfl : i < body.length ∨ i = body.length ∨ i = body.length + 1 := by
    simp only [List.length_append, List.length_cons, List.length_nil] at hi
    omega
  · rw [List.getElem_append_left hbody] at hc
    rw [List.set_append_left _ _ hbody, checksumGood_append, decide_eq_false_iff_not, hgood]
    exact (sum16_set_ne hbody hc).symm
  · have hne : c ≠ h := by simpa using hc
    simp [← hgood, be16_inj, hne]
  · have hne : c ≠ l := by simpa using hc
    simp [← hgood, be16_inj, hne]

/-- Flipping a bit changes the byte. -/
theorem flipBit_ne (b : Byte) {k : Nat} (hk : k < 8) : b ^^^ (1#8 <<< k) ≠ b := by
  intro e
  have hbit := congrArg (fun v => v.getLsbD k) e
  simp [hk] at hbit

/-- Settles O15: the encoded request carries its own sum, and a flipped bit is a changed byte. -/
theorem oneFlippedBitIsDetected : Obligations.OneFlippedBitIsDetected := by
  unfold Obligations.OneFlippedBitIsDetected
  exact ⟨fun kind node obj data => checksumGood_withChecksum (requestBody kind node obj data),
    fun r i k h hk hgood => checksumGood_set_ne h (flipBit_ne r[i] hk) hgood⟩

end Sys2Proof.Machine
end

section
/-!
PROOFS. The family of spec/41_encode.md: what an encoded request is made of, and what can be read back from it (R103).
-/

namespace Sys2Proof.Machine

/-! ### The start delimiter -/

/-- No data and one byte make the same start delimiter (R103 (d)). -/
theorem startDelimiter_one (kind : Byte) : startDelimiter kind 1 = startDelimiter kind 0 := rfl

/-- Data add `n - 1` to the start delimiter of no data (R103 (b)). -/
theorem startDelimiter_of_ne_zero (kind : Byte) {n : Nat} (hn : n ≠ 0) :
    startDelimiter kind n = startDelimiter kind 0 + BitVec.ofNat 8 (n - 1) := by
  simp [startDelimiter, lengthAdjust, hn]

/-- For one length the start delimiter tells the kind, which it only adds to. -/
theorem startDelimiter_inj {kind kind' : Byte} {n : Nat} :
    startDelimiter kind n = startDelimiter kind' n ↔ kind = kind' := by
  simp [startDelimiter]

/-- Bits 7:6, KIND, are the upper half of bits 7:4 (R62). -/
theorem extractLsb'_kind_eq (sd : Byte) : sd.extractLsb' 6 2 = (delimiterHigh sd).extractLsb' 2 2 := by
  ext i hi
  have hin : 2 + i < 4 := by omega
  simp [delimiterHigh, hin, ← Nat.add_assoc]

/-- The kind of a legal request is read back from KIND (R103 (c)). -/
theorem startDelimiter_kind {kind : Byte} {n : Nat} (hk : legalKind kind = true) (hn : n ≤ 16) :
    (startDelimiter kind n).extractLsb' 6 2 = 0b01#2 ∧ kind = 0x40 ∨
      (startDelimiter kind n).extractLsb' 6 2 = 0b11#2 ∧ kind = 0xC0 := by
  have hhigh := (startDelimiter_nibbles hk hn).1
  rw [extractLsb'_kind_eq, hhigh]
  obtain rfl | rfl := (legalKind_iff kind).1 hk
  · exact .inl ⟨rfl, rfl⟩
  · exact .inr ⟨rfl, rfl⟩

/-! ### The telegram, byte by byte -/

/-- The start delimiter, the node, the object, the data and the two bytes of the sum (R100). -/
theorem encodeTelegram_eq_cons (kind node obj : Byte) (data : List Byte) :
    encodeTelegram kind node obj data =
      startDelimiter kind data.length :: node :: obj ::
        (data ++ [hi8 (sum16 (requestBody kind node obj data)), lo8 (sum16 (requestBody kind node obj data))]) := rfl

theorem encodeTelegram_getElem?_zero (kind node obj : Byte) (data : List Byte) :
    (encodeTelegram kind node obj data)[0]? = some (startDelimiter kind data.length) := rfl

/-- `encode` is injective, legal arguments or not: the length of a telegram gives that of its data, which says where the
data end and what was added to the kind. -/
theorem encodeTelegram_inj {kind kind' node node' obj obj' : Byte} {data data' : List Byte}
    (h : encodeTelegram kind node obj data = encodeTelegram kind' node' obj' data') :
    kind = kind' ∧ node = node' ∧ obj = obj' ∧ data = data' := by
  have hlen : data.length = data'.length := by
    have := congrArg List.length h
    rw [encodeTelegram_length, encodeTelegram_length] at this
    omega
  simp only [encodeTelegram_eq_cons, List.cons.injEq, hlen, startDelimiter_inj] at h
  obtain ⟨hkind, hnode, hobj, hrest⟩ := h
  exact ⟨hkind, hnode, hobj, List.append_inj_left hrest hlen⟩

/-- Settles O17: each part reads off the telegram byte by byte, the sum verifies by its construction. -/
theorem encodedRequestProperties : Obligations.EncodedRequestProperties := by
  unfold Obligations.EncodedRequestProperties
  refine ⟨encodeTelegram_length, fun k d o data hne => ?adjusts, fun k d o data hk hn => ?recovers,
    ?injective, fun k d o b => ?sameDelimiter, fun k d o data => checksumGood_withChecksum (requestBody k d o data)⟩
  case adjusts =>
    have hlen : data.length ≠ 0 := mt List.length_eq_zero_iff.1 hne
    rw [encodeTelegram_getElem?_zero, encodeTelegram_getElem?_zero, startDelimiter_of_ne_zero k hlen]
    rfl
  case recovers =>
    exact ⟨_, _, encodeTelegram_eq_cons k d o data, summedPart_append data _ _, startDelimiter_kind hk hn,
      (startDelimiter_nibbles hk hn).2⟩
  case injective =>
    intros
    exact encodeTelegram_inj ‹_›
  case sameDelimiter =>
    rw [encodeTelegram_getElem?_zero, encodeTelegram_getElem?_zero]
    exact congrArg some (startDelimiter_one k).symm

end Sys2Proof.Machine
end

section
/-!
PROOFS. The family of spec/42_decode.md: the parts of a response that RSP_FIELDS names, and where each is defined (R114).
-/

namespace Sys2Proof.Machine

/-! ### The parts of a response -/

/-- `rsp_data` of fewer than five bytes is undefined (R114). -/
theorem responseData_short {r : List Byte} (h : r.length < 5) : responseData r = none := by
  simp [responseData, h]

/-- `rsp_data` is what stands between the three header bytes and the checksum (R114). -/
theorem responseData_cons_append (a b c : Byte) (data : List Byte) (hi lo : Byte) :
    responseData (a :: b :: c :: (data ++ [hi, lo])) = some data := by
  have hsummed : summedPart (a :: b :: c :: (data ++ [hi, lo])) = a :: b :: c :: data :=
    summedPart_append (a :: b :: c :: data) hi lo
  rw [summedPart] at hsummed
  simp only [responseData, hsummed]
  simp

/-- `rsp_cs` of fewer than two bytes is undefined (R114). -/
theorem carriedChecksum_short : ∀ {r : List Byte}, r.length < 2 → carriedChecksum r = none
  | [], _ => rfl
  | [_], _ => rfl

/-! ### RSP_FIELDS -/

/-- RSP_FIELDS drives the view of the response that RX holds (R114). -/
theorem exec_rspFields {s : State} {r : List Byte} (hr : response s = .ok r) :
    exec .rspFields s = .next { s with fieldsOut := some (fieldsView r) } := by
  simp [exec, execRspFields, withRead, hr]

/-- Settles O22: the view is that of the response; data and checksum split by the length that defines them. -/
theorem fieldsViewShowsTheResponse : Obligations.FieldsViewShowsTheResponse := by
  unfold Obligations.FieldsViewShowsTheResponse
  intro s r hr
  refine ⟨fieldsView r, exec_rspFields hr, rfl, rfl, rfl, responseData_short, ?data, carriedChecksum_short, ?checksum⟩
  case data =>
    rintro a b c data hi lo rfl
    exact responseData_cons_append a b c data hi lo
  case checksum =>
    rintro init hi lo rfl
    exact ⟨carriedChecksum_append init hi lo, be16_toNat hi lo⟩

end Sys2Proof.Machine
end

section
/-!
PROOFS. The family of spec/43_transport.md: the commands at acceptance (R132 to R136), the phases of a transfer
(R138 to R146) and the changes of phase (R152).
-/

namespace Sys2Proof.Machine

/-! ### The commands at acceptance -/

theorem exec_openLink (s : State) : exec .openLink s = execOpen s := rfl

theorem exec_closeLink (s : State) : exec .closeLink s = execClose s := rfl

theorem exec_transfer (kind obj : Byte) (dlen : BitVec 5) (data : Vector Byte 16) (s : State) :
    exec (.transfer kind obj dlen data) s = transferCommand kind obj dlen.toNat (data.toList.take dlen.toNat) s := rfl

/-- A command that completes in phase IDLE stays there. -/
theorem completeCommand_of_idle {s : State} (hp : s.phase = .idle) : completeCommand s = { s with done := true } := by
  rw [completeCommand, ← hp]

theorem raiseError_notConnected_of_idle {s : State} (hp : s.phase = .idle) :
    raiseError .notConnected s = { s with fNotConnected := true, done := true } :=
  completeCommand_of_idle (s := { s with fNotConnected := true }) hp

theorem raiseError_refused_of_idle {s : State} (hp : s.phase = .idle) :
    raiseError .refused s = { s with fRefused := true, done := true } :=
  completeCommand_of_idle (s := { s with fRefused := true }) hp

/-- Settles O29: an unopened link opens, any other refuses. -/
theorem openOpensOrIsRefused : Obligations.OpenOpensOrIsRefused := by
  unfold Obligations.OpenOpensOrIsRefused
  intro s hp
  have hidle : (acceptCommand s).phase = .idle := hp
  refine ⟨fun hl => ?opens, fun hl => ?refused⟩
  case opens =>
    rw [exec_openLink, execOpen_unopened hp hl,
      completeCommand_of_idle (s := { acceptCommand s with link := .opened, gapArmed := false }) hidle]
  case refused => rw [exec_openLink, execOpen_refused hp hl, raiseError_refused_of_idle hidle]

/-- Settles O30: an open link closes, any other is not connected. -/
theorem closeClosesOrIsNotConnected : Obligations.CloseClosesOrIsNotConnected := by
  unfold Obligations.CloseClosesOrIsNotConnected
  intro s hp
  have hidle : (acceptCommand s).phase = .idle := hp
  refine ⟨fun hl => ?closes, fun hl => ?notConnected⟩
  case closes =>
    rw [exec_closeLink, execClose_opened hp hl,
      completeCommand_of_idle (s := { acceptCommand s with link := .closed }) hidle]
  case notConnected => rw [exec_closeLink, execClose_notConnected hp hl, raiseError_notConnected_of_idle hidle]

theorem legalKind_false_iff (kind : Byte) :
    legalKind kind = false ↔ kind ≠ Config.kindQuery ∧ kind ≠ Config.kindSend := by
  rw [← Bool.not_eq_true, legalKind_iff, not_or]

/-- Settles O31: the link is tested first, then the kind and the length. -/
theorem transferFailsAtAcceptance : Obligations.TransferFailsAtAcceptance := by
  unfold Obligations.TransferFailsAtAcceptance
  intro kind obj dlen data s hp
  have hidle : (acceptCommand s).phase = .idle := hp
  refine ⟨fun hl => ?notConnected, fun hl hbad => ?refused⟩
  case notConnected =>
    rw [exec_transfer, transferCommand_notConnected hp hl, raiseError_notConnected_of_idle hidle]
  case refused =>
    have hillegal : legalKind kind = false ∨ Config.maxTxData < dlen.toNat :=
      hbad.imp_left (legalKind_false_iff kind).2
    rw [exec_transfer, transferCommand_refused hp hl hillegal, raiseError_refused_of_idle hidle]

/-- Settles O32: the accepted TRANSFER, whose data lines hold exactly the bytes of its length. -/
theorem transferIsLatchedAndEncoded : Obligations.TransferIsLatchedAndEncoded := by
  unfold Obligations.TransferIsLatchedAndEncoded
  intro kind obj dlen data s hp hl hk hd
  have hlen := length_presentedData data hd
  refine ⟨_, _, rfl, rfl, ?_⟩
  rw [exec_transfer, transferCommand_accepted hp hl ((legalKind_iff kind).2 hk) hd (hlen.trans_le hd), hlen]

/-! ### The receiver -/

/-- While the window is open a byte is written behind those already there (R143). -/
theorem receiveByte_open {b : Byte} {s : State} (h : windowOpen s = true) :
    receiveByte b s = { s with rx := s.rx.write s.rxLen b, rxLen := s.rxLen + 1 } := by
  simp [receiveByte, h, writeByte]

/-- Settles O40: the window decides, and a write at `rx_len` is read back there and nowhere else. -/
theorem receivedByteIsStoredOrDropped : Obligations.ReceivedByteIsStoredOrDropped := by
  unfold Obligations.ReceivedByteIsStoredOrDropped
  intro b s
  rw [← windowOpen_iff, Bool.not_eq_true]
  refine ⟨fun hopen => ?stored, receiveByte_closed⟩
  case stored =>
    exact ⟨s.rx.write s.rxLen b, receiveByte_open hopen, memory_read_write_same s.rx s.rxLen b,
      fun _ ha => memory_read_write_other s.rx b ha, memory_write_wf s.rxLen b⟩

/-! ### Phase RX -/

theorem readEnded_iff (s : State) :
    readEnded s = true ↔ s.rxLen = 100 ∨ s.rxTimer = Config.timeoutTicks := by
  rw [readEnded, Bool.or_eq_true, decide_eq_true_eq, decide_eq_true_eq]; rfl

/-- Phase RX writes the phase only (R144). -/
theorem moveRx_eq (s : State) : moveRx s = .next { s with phase := if readEnded s then .check else s.phase } := by
  cases h : readEnded s <;> simp [moveRx, h]

/-- What a moment leaves in RX is what its received byte makes of it. -/
theorem observe_dropMoment_received (m : Moment) (s : State) :
    (observe m (dropMoment s)).rx = (receive m.received s).rx ∧
      (observe m (dropMoment s)).rxLen = (receive m.received s).rxLen := by
  rw [observe_rx, observe_rxLen, receive_dropMoment]
  exact ⟨rfl, rfl⟩

/-- Settles O41: byte and tick come with the moment, and the phase is then decided by what they left. -/
theorem readEndsByLengthOrTimeout : Obligations.ReadEndsByLengthOrTimeout := by
  unfold Obligations.ReadEndsByLengthOrTimeout
  intro s hp hreset
  obtain ⟨hrx, hrxLen⟩ := observe_dropMoment_received (nextMoment s) s
  have hframe := observe_eq (nextMoment s) (dropMoment s)
  have htimer := observe_rxTimer (nextMoment s) (dropMoment s)
  have hgap := observe_gapTimer (nextMoment s) (dropMoment s)
  have hphase := (observe_phase (nextMoment s) (dropMoment s)).trans hp
  have hended := readEnded_iff (observe (nextMoment s) (dropMoment s))
  rw [step_rx hreset hp, moveRx_eq]
  generalize observe (nextMoment s) (dropMoment s) = o at *
  refine ⟨_, rfl, ?frame, ?_, ?_, ?_, ?_, ?_, ?_, ?_, ?_, ?_, ?_, hgap, hrx, hrxLen, ?timer, ?ends, ?goesOn⟩
  case frame => rw [hframe]
  case timer => simpa [hp] using htimer
  case ends => exact fun h => if_pos (hended.2 h)
  case goesOn => exact fun h => (if_neg (mt hended.1 (not_or.2 h))).trans hphase
  all_goals rw [hframe]; rfl

/-! ### Phase CHECK -/

/-- VERIFY_CHECKSUM and IS_ERROR write different registers, so their order does not matter (R116). -/
theorem setClass_verifyResponse_comm (c : ResponseClass) (r : List Byte) (s : State) :
    setClass c (verifyResponse r s) = verifyResponse r (setClass c s) := by
  cases c <;> simp only [verifyResponse_eq, setClass]

theorem exec_verifyChecksum {s : State} {r : List Byte} (hr : response s = .ok r) :
    exec .verifyChecksum s = .next (verifyResponse r s) := by
  simp [exec, execVerifyChecksum, withRead, hr]

theorem exec_isError {s : State} {r : List Byte} (hr : response s = .ok r) :
    exec .isError s = .next (setClass (classify r) s) := by
  simp [exec, execIsError, withRead, hr, reportClass_eq]

/-- The response is RX up to `rx_len`, whatever the other registers hold. -/
theorem response_congr {s s' : State} (hrx : s'.rx = s.rx) (hlen : s'.rxLen = s.rxLen) : response s' = response s := by
  rw [response, response, hlen]
  exact readBytes_congr (sp := .rx) hrx 0 s.rxLen

@[simp] theorem response_verifyResponse (r : List Byte) (s : State) : response (verifyResponse r s) = response s :=
  response_congr (by rw [verifyResponse_eq]) (by rw [verifyResponse_eq])

@[simp] theorem response_setClass (c : ResponseClass) (s : State) : response (setClass c s) = response s :=
  response_congr (by rw [setClass_eq]) (by rw [setClass_eq])

/-- Settles O25: both checks read the same response and commute, and a class is the two and completion. -/
theorem checksRunInEitherOrder : Obligations.ChecksRunInEitherOrder := by
  unfold Obligations.ChecksRunInEitherOrder
  intro s r i hp hr hi
  refine ⟨setClass (classify r) (verifyResponse r s), ?verifyFirst, ?classFirst, exec_decodedResponse hi hp⟩
  case verifyFirst =>
    have hr' : response (verifyResponse r s) = .ok r := by rw [response_verifyResponse, hr]
    simp only [execAll, exec_verifyChecksum hr, andThen, exec_isError hr']
  case classFirst =>
    have hr' : response (setClass (classify r) s) = .ok r := by rw [response_setClass, hr]
    simp only [execAll, exec_isError hr, andThen, exec_verifyChecksum hr', setClass_verifyResponse_comm]

theorem response_empty {s : State} (h : s.rxLen = 0) : response s = .ok [] := by
  rw [response, h]; rfl

/-- Phase CHECK with nothing received (R145). -/
theorem moveCheck_empty {s : State} (h : s.rxLen = 0) : moveCheck s = .next (raiseError .ioError s) := by
  simp [moveCheck, response_empty h, withRead, decodeResponse]

/-- With the window closed a moment changes `gap_timer` only. -/
theorem observe_closed {m : Moment} {s : State} (htx : s.phase ≠ .tx) (hrx : s.phase ≠ .rx) :
    observe m s =
      { s with gapTimer := if m.tick then min (s.gapTimer + 1) Config.gapTicks else s.gapTimer } := by
  obtain ⟨hcells, hlen⟩ := observe_rx_closed (m := m) (windowOpen_false htx hrx)
  rw [observe_eq, hcells, hlen, observe_gapTimer, observe_rxTimer]
  simp [hrx]

/-- Settles O42: no byte can arrive in CHECK, so the response is empty and IoError is raised. -/
theorem emptyReadIsIoError : Obligations.EmptyReadIsIoError := by
  unfold Obligations.EmptyReadIsIoError
  intro s hp hlen hreset
  have hobs := observe_closed (m := nextMoment s) (s := dropMoment s) (by simp [hp]) (by simp [hp])
  have hempty : (observe (nextMoment s) (dropMoment s)).rxLen = 0 := by rw [hobs]; exact hlen
  rw [step_check hreset hp, moveCheck_empty hempty, hobs]
  rfl

/-! ### What each move can do -/

theorem gapElapsed_iff (s : State) : gapElapsed s = true ↔ s.gapArmed = false ∨ Config.gapTicks ≤ s.gapTimer := by
  simp [gapElapsed]

/-- Phase GAP is left for TX, or the block waits (R138). -/
theorem moveGap_cases {s t : State} (h : moveGap s = .next t) :
    (gapElapsed s = true ∧ t = { s with txIdx := 0, phase := .tx }) ∨ (gapElapsed s = false ∧ t = s) := by
  cases hg : gapElapsed s <;> simp only [moveGap, hg] at h <;> cases h
  · exact .inr ⟨rfl, rfl⟩
  · exact .inl ⟨rfl, rfl⟩

/-- Phase TX: a failed write, one hand-over, or nothing (R140, R141). -/
theorem moveTx_cases {ready fail : Bool} {s t : State} (h : moveTx ready fail s = .next t) :
    (fail = true ∧ t = failWrite s) ∨
    (fail = false ∧ ready = true ∧ ∃ b, readByte .tx s.txIdx s = .ok b ∧ t = handOver b s) ∨
    (fail = false ∧ ready = false ∧ t = s) := by
  match fail, ready with
  | true, _ => cases h; exact .inl ⟨rfl, rfl⟩
  | false, false => cases h; exact .inr (.inr ⟨rfl, rfl, rfl⟩)
  | false, true =>
    replace h : withRead (readByte .tx s.txIdx s) (fun b => .next (handOver b s)) = .next t := h
    cases hb : readByte .tx s.txIdx s with
    | ok b => rw [hb] at h; cases h; exact .inr (.inl ⟨rfl, rfl, b, rfl, rfl⟩)
    | error f => rw [hb] at h; cases h

/-- The hand-over of the last byte begins the read (R140). -/
theorem handOver_last {b : Byte} {s : State} (h : s.txIdx + 1 = s.txLen) :
    handOver b s =
      { s with
        wireOut := s.wireOut ++ [b], txIdx := s.txIdx + 1, gapTimer := 0, gapArmed := true, rxTimer := 0
        phase := .rx } := by
  simp [handOver, h]

theorem handOver_notLast {b : Byte} {s : State} (h : s.txIdx + 1 ≠ s.txLen) :
    handOver b s = { s with wireOut := s.wireOut ++ [b], txIdx := s.txIdx + 1 } := by
  simp [handOver, h]

/-- Phase CHECK: the read was empty, or both checks and completion (R145, R146). -/
theorem moveCheck_cases {s t : State} (hp : s.phase = .check) (h : moveCheck s = .next t) :
    (response s = .ok [] ∧ t = raiseError .ioError s) ∨
    ∃ r, r ≠ [] ∧ response s = .ok r ∧ t = completeCommand (setClass (classify r) (verifyResponse r s)) := by
  cases hr : response s with
  | error f => simp [moveCheck, hr, withRead] at h
  | ok r =>
    rw [moveCheck_eq hp hr] at h
    split_ifs at h with he <;> cases h
    · exact .inl ⟨by rw [he], rfl⟩
    · exact .inr ⟨r, he, rfl, rfl⟩

/-! ### Changes of phase -/

/-- OPEN completes, with or without an error. -/
theorem execOpen_phase {s t : State} (hp : s.phase = .idle) (h : execOpen s = .next t) : t.phase = .idle := by
  by_cases hl : s.link = .unopened
  · rw [execOpen_unopened hp hl] at h
    cases h; rfl
  · rw [execOpen_refused hp hl] at h
    cases h; rfl

/-- CLOSE completes, with or without an error. -/
theorem execClose_phase {s t : State} (hp : s.phase = .idle) (h : execClose s = .next t) : t.phase = .idle := by
  by_cases hl : s.link = .opened
  · rw [execClose_opened hp hl] at h
    cases h; rfl
  · rw [execClose_notConnected hp hl] at h
    cases h; rfl

/-- A TRANSFER in phase IDLE goes to GAP only if it is legal and the link is open (R135, R136). -/
theorem transferCommand_phase_cases {kind obj : Byte} {dlen : Nat} {data : List Byte} {s t : State}
    (hp : s.phase = .idle) (hlen : dlen ≤ Config.maxTxData → data.length ≤ Config.maxTxData)
    (h : transferCommand kind obj dlen data s = .next t) :
    t.phase = .idle ∨
    (t.phase = .gap ∧ s.link = .opened ∧ legalKind kind = true ∧ dlen ≤ Config.maxTxData) := by
  by_cases hl : s.link = .opened
  · by_cases hlegal : legalKind kind = true ∧ dlen ≤ Config.maxTxData
    · obtain ⟨hk, hd⟩ := hlegal
      rw [transferCommand_accepted hp hl hk hd (hlen hd)] at h
      cases h; exact .inr ⟨rfl, hl, hk, hd⟩
    · rw [not_and_or, Bool.not_eq_true, Nat.not_le] at hlegal
      rw [transferCommand_refused hp hl hlegal] at h
      cases h; exact .inl rfl
  · rw [transferCommand_notConnected hp hl] at h
    cases h; exact .inl rfl

/-- Phase IDLE is left only for GAP, by a legal TRANSFER on an open link (R152). -/
theorem moveIdle_phase_cases {c : Option HostCommand} {s t : State} (hp : s.phase = .idle)
    (h : moveIdle c s = .next t) :
    t.phase = .idle ∨
    (t.phase = .gap ∧ s.link = .opened ∧ ∃ kind obj dlen data, c = some (.transfer kind obj dlen data) ∧
      (kind = 0x40 ∨ kind = 0xC0) ∧ dlen.toNat ≤ 16) := by
  match c with
  | none => cases h; exact .inl hp
  | some .openLink => exact .inl (execOpen_phase hp h)
  | some .closeLink => exact .inl (execClose_phase hp h)
  | some (.transfer kind obj dlen data) =>
    rw [moveIdle, exec_decodedTransfer] at h
    have hlen (hd : dlen.toNat ≤ Config.maxTxData) := (length_presentedData data hd).trans_le hd
    obtain hidle | ⟨hgap, hl, hk, hd⟩ := transferCommand_phase_cases hp hlen h
    · exact .inl hidle
    · exact .inr ⟨hgap, hl, kind, obj, dlen, data, rfl, (legalKind_iff kind).1 hk, hd⟩

/-- The hand-over leaves TX only with the last byte (R140). -/
theorem handOver_phase_cases (b : Byte) {s : State} (hp : s.phase = .tx) :
    (handOver b s).phase = .tx ∨ ((handOver b s).phase = .rx ∧ (handOver b s).txIdx = s.txLen) := by
  by_cases h : s.txIdx + 1 = s.txLen
  · rw [handOver_last h]; exact .inr ⟨rfl, h⟩
  · rw [handOver_notLast h]; exact .inl hp

/-- Settles O52: the phase the step starts in names the move, and the move's cases name the row of the table. -/
theorem phaseChangesAsTheTableSays : Obligations.PhaseChangesAsTheTableSays := by
  unfold Obligations.PhaseChangesAsTheTableSays
  intro s t h hreset hne
  have hphase : (observe (nextMoment s) (dropMoment s)).phase = s.phase := observe_phase _ _
  cases hp : s.phase with
  | idle =>
    rw [step_idle hreset hp] at h
    obtain hidle | ⟨hgap, hl, htransfer⟩ := moveIdle_phase_cases (hphase.trans hp) h
    · exact absurd (hidle.trans hp.symm) hne
    · exact .inl ⟨rfl, hgap, by simpa using hl, htransfer⟩
  | gap =>
    rw [step_gap hreset hp] at h
    obtain ⟨helapsed, rfl⟩ | ⟨-, rfl⟩ := moveGap_cases h
    · exact .inr (.inl ⟨rfl, rfl, by simpa using (gapElapsed_iff _).1 helapsed⟩)
    · exact absurd hphase hne
  | tx =>
    rw [step_tx hreset hp] at h
    obtain ⟨hfail, rfl⟩ | ⟨hfail, hready, b, -, rfl⟩ | ⟨-, -, rfl⟩ := moveTx_cases h
    · exact .inr (.inr (.inr (.inl ⟨rfl, rfl, rfl, rfl, hfail⟩)))
    · obtain htx | ⟨hrx, hlast⟩ := handOver_phase_cases b (hphase.trans hp)
      · exact absurd (htx.trans hp.symm) hne
      · exact .inr (.inr (.inl ⟨rfl, hrx, by simpa using hlast, hready, hfail⟩))
    · exact absurd hphase hne
  | rx =>
    rw [step_rx hreset hp, moveRx_eq] at h
    cases h
    cases hended : readEnded (observe (nextMoment s) (dropMoment s)) with
    | true => exact .inr (.inr (.inr (.inr (.inl ⟨rfl, rfl, (readEnded_iff _).1 hended⟩))))
    | false => exact absurd (by simp [hended]) hne
  | check =>
    rw [step_check hreset hp] at h
    obtain ⟨-, rfl⟩ | ⟨r, hsome, hr, rfl⟩ := moveCheck_cases (hphase.trans hp) h
    · exact .inr (.inr (.inr (.inr (.inr ⟨rfl, rfl, rfl, fun _ => rfl⟩))))
    · refine .inr (.inr (.inr (.inr (.inr ⟨rfl, rfl, rfl, fun hlen => ?_⟩))))
      have hempty : (observe (nextMoment s) (dropMoment s)).rxLen = 0 := by
        rw [observe_closed (by simp [hp]) (by simp [hp])]; exact hlen
      rw [response_empty hempty] at hr
      cases hr
      exact absurd rfl hsome

end Sys2Proof.Machine
end

section
/-!
PROOFS. Decoder and encoder: what each undoes of the other, for a request (R61, R62), a response (R64, R65, R68) and a
presented command (R28).
-/

namespace Sys2Proof.Machine

/-! ### Requests -/

/-- An encoded request of a legal kind, at most 16 data bytes and the fixed node decodes to the kind's instruction. -/
theorem decodeRequest_encodeTelegram {kind obj : Byte} {data : List Byte} (hk : legalKind kind = true)
    (hn : data.length ≤ 16) :
    decodeRequest (encodeTelegram kind Config.nodeFixed obj data) =
      .ok (if kind = Config.kindQuery then .query obj data else .send obj data) := by
  obtain ⟨hhigh, hlen⟩ := startDelimiter_nibbles hk hn
  rw [encodeTelegram_eq_cons]
  obtain rfl | rfl := (legalKind_iff kind).1 hk
  · simp [decodeRequest, hhigh, hlen]
  · have hne : Config.kindSend ≠ Config.kindQuery := by decide
    simp [decodeRequest, hhigh, hlen, hne]

/-- A sum read from two bytes is the sum exactly when the bytes are its two. -/
theorem be16_eq_iff {h l : Byte} {v : Word} : be16 h l = v ↔ h = hi8 v ∧ l = lo8 v := by
  rw [← be16_inj, be16_hi8_lo8]

/-- A summed part with two bytes behind it verifies exactly when they are its checksum bytes (R110). -/
theorem checksumGood_append_iff (body : List Byte) (h l : Byte) :
    checksumGood (body ++ [h, l]) = true ↔ body ++ [h, l] = withChecksum body := by
  rw [checksumGood_append, decide_eq_true_eq, be16_eq_iff, withChecksum]
  simp

/-- Settles O9: what decodes is a request body and two bytes, and the right checksum says which two. -/
theorem intactRequestIsItsEncoding : Obligations.IntactRequestIsItsEncoding := by
  unfold Obligations.IntactRequestIsItsEncoding
  intro t i hd hgood
  obtain ⟨obj, data, hi, lo, hn, ⟨rfl, rfl⟩ | ⟨rfl, rfl⟩⟩ := decodeRequest_cases hd
  · exact ⟨congrArg some ((checksumGood_append_iff _ hi lo).1 hgood).symm, (wellFormed_query obj data).2 hn⟩
  · exact ⟨congrArg some ((checksumGood_append_iff _ hi lo).1 hgood).symm, (wellFormed_send obj data).2 hn⟩

/-! ### Responses -/

/-- A response that is no status response decodes to RSP_DATA with all its bytes (R68). -/
theorem decodeResponse_of_not_isStatus {r : List Byte} (hr : r ≠ []) (hs : isStatus r = false) :
    decodeResponse r = .ok (.rspData r) := by
  obtain ⟨a, b, tail, rfl, -, -⟩ | ⟨a, b, code, tail, -, rfl, -, -⟩ | ⟨-, hd, -⟩ := decodeResponse_classify hr
  · simp [isStatus] at hs
  · simp [isStatus] at hs
  · exact hd

/-- Settles O8: one case per class of response. -/
theorem responseDecodingDropsNoByte : Obligations.ResponseDecodingDropsNoByte := by
  unfold Obligations.ResponseDecodingDropsNoByte
  intro r hr
  obtain ⟨a, b, tail, rfl, hd, -⟩ | ⟨a, b, code, tail, hc, rfl, hd, -⟩ | ⟨hs, hd, -⟩ := decodeResponse_classify hr
  · exact ⟨_, hd, rfl, (wellFormed_rspStatusAck a b tail).2⟩
  · exact ⟨_, hd, rfl, fun hlen => (wellFormed_rspStatusError a b code tail).2 ⟨hc, hlen⟩⟩
  · exact ⟨_, hd, rfl, fun hlen => (wellFormed_rspData r).2 ⟨⟨List.length_pos_iff.2 hr, hlen⟩, hs⟩⟩

/-- Settles O7: the two request kinds, the three response classes, and the operations that have no telegram. -/
theorem decodeInvertsEncode : Obligations.DecodeInvertsEncode := by
  unfold Obligations.DecodeInvertsEncode
  intro i t hwf ht
  cases i with
  | query obj data => cases ht; exact decodeRequest_encodeTelegram rfl ((wellFormed_query obj data).1 hwf)
  | send obj data => cases ht; exact decodeRequest_encodeTelegram rfl ((wellFormed_send obj data).1 hwf)
  | rspStatusAck first second tail => cases ht; rfl
  | rspStatusError first second code tail =>
    cases ht
    have hc : code ≠ Config.codeAck := ((wellFormed_rspStatusError first second code tail).1 hwf).1
    simp [decode, direction, decodeResponse, hc]
  | rspData bytes =>
    cases ht
    obtain ⟨⟨hpos, -⟩, hs⟩ := (wellFormed_rspData _).1 hwf
    exact decodeResponse_of_not_isStatus (List.length_pos_iff.1 hpos) hs
  | openLink | closeLink | transfer | encode | verifyChecksum | isError | rspFields | csClear | csAdd | sum16 | csSplit =>
    cases ht

/-- Settles O6: five fixed byte strings. -/
theorem specByteStringsDecode : Obligations.SpecByteStringsDecode := by
  unfold Obligations.SpecByteStringsDecode
  decide

/-! ### Presented commands -/

/-- A legal length fits the five bits of `cmd_dlen` (R28). -/
theorem toNat_presentedLength {n : Nat} (h : n ≤ 16) : (BitVec.ofNat 5 n).toNat = n := by
  rw [BitVec.toNat_ofNat]; omega

/-- The data lines carry a legal request's bytes first (R28). -/
theorem take_dataLines {data : List Byte} (h : data.length ≤ 16) : (dataLines data).toList.take data.length = data := by
  have : min data.length 16 = data.length := by omega
  simp [dataLines, List.take_take, this]

/-- A presented TRANSFER of a legal kind and length decodes to its kind's instruction (R68). -/
theorem decodeCommand_presented {kind obj : Byte} {data : List Byte} (hk : legalKind kind = true)
    (hn : data.length ≤ 16) :
    decodeCommand (.transfer kind obj (BitVec.ofNat 5 data.length) (dataLines data)) =
      if kind = Config.kindQuery then .query obj data else .send obj data := by
  have hmax : data.length ≤ Config.maxTxData := hn
  simp only [decodeCommand, toNat_presentedLength hn, take_dataLines hn, hmax, true_and]
  obtain rfl | rfl := (legalKind_iff kind).1 hk <;> rfl

/-- Settles O11: length and data lines give back the data, the kind the instruction. -/
theorem presentedCommandDecodesBack : Obligations.PresentedCommandDecodesBack := by
  unfold Obligations.PresentedCommandDecodesBack
  exact fun obj data hn =>
    ⟨⟨_, rfl, decodeCommand_presented rfl hn⟩, ⟨_, rfl, decodeCommand_presented rfl hn⟩⟩

end Sys2Proof.Machine
end

section
/-!
PROOFS. What acceptance can leave (R132 to R136), as one inductive relation, and that every move but a hand-over and a check
goes on whatever the buffers hold.
-/

namespace Sys2Proof.Machine

/-! ### Acceptance -/

/-- What R136 leaves: the request latched, its telegram in TX, U1 on its sum, the framer in GAP. -/
def startedTransfer (kind obj : Byte) (data : List Byte) (s : State) : State :=
  { s with
    reqKind := kind, reqNode := 0, reqObj := obj, reqDlen := data.length, req := cellsFrom 0 data
    csAcc := sum16 (requestBody kind 0 obj data)
    csOut := some (hi8 (sum16 (requestBody kind 0 obj data)), lo8 (sum16 (requestBody kind 0 obj data)))
    tx := cellsFrom 0 (encodeTelegram kind 0 obj data)
    txLen := 5 + data.length
    phase := .gap }

theorem startTransfer_eq_startedTransfer {kind obj : Byte} {data : List Byte} (s : State) (hk : legalKind kind = true)
    (h : data.length ≤ Config.maxTxData) :
    startTransfer kind obj data s = .next (startedTransfer kind obj data s) := startTransfer_eq s hk h

/-- A presented command that acceptance lets through to GAP (R135). -/
def startsTransfer (c : HostCommand) (s : State) : Prop :=
  s.link = .opened ∧ ∃ kind obj dlen data, c = .transfer kind obj dlen data ∧ (kind = 0x40 ∨ kind = 0xC0) ∧
    dlen.toNat ≤ 16

/-- What a command accepted in `s` can leave: R132 and R133 with success, the two errors of R132, R133 and R135, the
start of a transfer. -/
inductive LeftByCommand (c : HostCommand) (s : State) : State → Prop where
  | opens (hc : c = .openLink) (hl : s.link = .unopened) :
    LeftByCommand c s (completeCommand { acceptCommand s with link := .opened, gapArmed := false })
  | closes (hc : c = .closeLink) (hl : s.link = .opened) :
    LeftByCommand c s (completeCommand { acceptCommand s with link := .closed })
  | notConnected (hl : s.link ≠ .opened) : LeftByCommand c s (raiseError .notConnected (acceptCommand s))
  | refused (h : ¬ startsTransfer c s) : LeftByCommand c s (raiseError .refused (acceptCommand s))
  | starts (kind obj : Byte) (data : List Byte) (h : startsTransfer c s) (hk : legalKind kind = true)
    (hd : data.length ≤ Config.maxTxData) : LeftByCommand c s (startedTransfer kind obj data (acceptCommand s))

/-- In phase IDLE a presented command is always carried out to the end of acceptance. -/
theorem exec_decodeCommand_idle (c : HostCommand) {s : State} (hp : s.phase = .idle) :
    ∃ t, exec (decodeCommand c) s = .next t ∧ LeftByCommand c s t := by
  match c with
  | .openLink =>
    by_cases hl : s.link = .unopened
    · exact ⟨_, execOpen_unopened hp hl, .opens rfl hl⟩
    · exact ⟨_, execOpen_refused hp hl, .refused fun h => by obtain ⟨-, _, _, _, _, hc, -⟩ := h; cases hc⟩
  | .closeLink =>
    by_cases hl : s.link = .opened
    · exact ⟨_, execClose_opened hp hl, .closes rfl hl⟩
    · exact ⟨_, execClose_notConnected hp hl, .notConnected hl⟩
  | .transfer kind obj dlen data =>
    rw [exec_decodedTransfer]
    by_cases hl : s.link = .opened
    · by_cases hlegal : legalKind kind = true ∧ dlen.toNat ≤ Config.maxTxData
      · obtain ⟨hk, hd⟩ := hlegal
        have hlen := (length_presentedData data hd).trans_le hd
        exact ⟨_, transferCommand_accepted hp hl hk hd hlen,
          .starts kind obj _ ⟨hl, kind, obj, dlen, data, rfl, (legalKind_iff kind).1 hk, hd⟩ hk hlen⟩
      · have hbad : legalKind kind = false ∨ Config.maxTxData < dlen.toNat := by
          rwa [not_and_or, Bool.not_eq_true, Nat.not_le] at hlegal
        refine ⟨_, transferCommand_refused hp hl hbad, .refused ?_⟩
        rintro ⟨-, _, _, _, _, hc, hk, hd⟩
        cases hc
        exact hlegal ⟨(legalKind_iff kind).2 hk, hd⟩
    · exact ⟨_, transferCommand_notConnected hp hl, .notConnected hl⟩

/-- Every phase IDLE move answers a next state. -/
theorem moveIdle_cases (c : Option HostCommand) {s : State} (hp : s.phase = .idle) :
    ∃ t, moveIdle c s = .next t ∧ (c = none ∧ t = s ∨ ∃ k, c = some k ∧ LeftByCommand k s t) := by
  match c with
  | none => exact ⟨s, rfl, .inl ⟨rfl, rfl⟩⟩
  | some k =>
    obtain ⟨t, ht, hleft⟩ := exec_decodeCommand_idle k hp
    exact ⟨t, ht, .inr ⟨k, rfl, hleft⟩⟩

/-! ### What stops a move -/

theorem moveGap_next (s : State) : ∃ t, moveGap s = .next t := by
  rw [moveGap]; split <;> exact ⟨_, rfl⟩

/-- Phase TX stops only on a hand-over of a byte that cannot be read. -/
theorem moveTx_next_or_fault (ready fail : Bool) (s : State) :
    (∃ t, moveTx ready fail s = .next t) ∨ ∃ f, readByte .tx s.txIdx s = .error f ∧ moveTx ready fail s = .fault f := by
  match fail, ready with
  | true, _ => exact .inl ⟨_, rfl⟩
  | false, false => exact .inl ⟨_, rfl⟩
  | false, true =>
    cases hb : readByte .tx s.txIdx s with
    | ok b => exact .inl ⟨handOver b s, by simp [moveTx, hb, withRead]⟩
    | error f => exact .inr ⟨f, rfl, by simp [moveTx, hb, withRead]⟩

/-- Phase CHECK stops only on a response that cannot be read. -/
theorem moveCheck_next_or_fault {s : State} (hp : s.phase = .check) :
    (∃ t, moveCheck s = .next t) ∨ ∃ f, response s = .error f ∧ moveCheck s = .fault f := by
  cases hr : response s with
  | ok r => rw [moveCheck_eq hp hr]; split <;> exact .inl ⟨_, rfl⟩
  | error f => exact .inr ⟨f, rfl, by simp [moveCheck, hr, withRead]⟩

/-- A move goes on, or it is a hand-over or a check that met a byte without a value. -/
theorem move_next_or_fault (m : Moment) (s : State) :
    (∃ t, move m s = .next t) ∨
    (∃ f, move m s = .fault f ∧
      (s.phase = .tx ∧ readByte .tx s.txIdx s = .error f ∨ s.phase = .check ∧ response s = .error f)) := by
  cases hp : s.phase <;> simp only [move, hp]
  case idle =>
    obtain ⟨t, ht, -⟩ := moveIdle_cases m.command hp
    exact .inl ⟨t, ht⟩
  case gap => exact .inl (moveGap_next s)
  case tx => exact (moveTx_next_or_fault _ _ s).imp_right fun ⟨f, hread, h⟩ => ⟨f, h, .inl ⟨trivial, hread⟩⟩
  case rx => exact .inl ⟨_, moveRx_eq s⟩
  case check => exact (moveCheck_next_or_fault hp).imp_right fun ⟨f, hread, h⟩ => ⟨f, h, .inr ⟨trivial, hread⟩⟩

/-- Settles O51: a reset goes on, and a move goes on or faults. -/
theorem noStepIsRefused : Obligations.NoStepIsRefused := by
  unfold Obligations.NoStepIsRefused
  intro s r h
  cases hreset : (nextMoment s).reset with
  | true => rw [step_reset hreset] at h; cases h
  | false =>
    rw [step_move hreset] at h
    obtain ⟨t, ht⟩ | ⟨f, hf, -⟩ := move_next_or_fault (nextMoment s) (observe (nextMoment s) (dropMoment s))
    · rw [ht] at h; cases h
    · rw [hf] at h; cases h

end Sys2Proof.Machine
end

section
/-!
PROOFS. The invariant: it holds at reset (R36), every move keeps it, so no run of the block stops; and what it says of a
completed command (R15, R29).
-/

namespace Sys2Proof.Machine

/-! ### Reset -/

theorem inv_resetBlock (s : State) : Inv (resetBlock s) where
  buffers := ⟨rfl, rfl, rfl, Nat.zero_le _, .inl rfl, Nat.zero_le _, Nat.zero_le _⟩
  timers := ⟨Nat.zero_le _, Nat.zero_le _⟩
  inFlight hp := absurd rfl hp
  wire := ⟨nofun, nofun, nofun⟩
  results := nofun
  fresh _ := rfl

/-- Settles O48: the reset state is what a reset makes of it. -/
theorem resetMeetsTheInvariant : Obligations.ResetMeetsTheInvariant := inv_resetBlock State.reset

/-! ### Completion -/

/-- A completed command owes the buffers, the timers and its results. -/
theorem inv_completed {s : State} (hb : BuffersFit s) (ht : TimersBounded s) (hp : s.phase = .idle)
    (hd : s.done = true) (hr : ResultsMatch s) : Inv s where
  buffers := hb
  timers := ht
  inFlight h := absurd hp h
  wire := ⟨fun h => by simp [hp] at h, fun h => by simp [hp] at h, fun h => by simp [hp] at h⟩
  results _ := hr
  fresh h := by simp [hd] at h

/-- A command that ends with no response and at most one of the three early errors, on a record that was clear. -/
theorem inv_endedEarly {s : State} (hb : BuffersFit s) (ht : TimersBounded s) (hn : NoRecord s) (hlen : s.rxLen = 0)
    {a b c : Bool} (hone : (a && (b || c) || b && c) = false) :
    Inv (completeCommand { s with fNotConnected := a, fRefused := b, fIoError := c }) := by
  obtain ⟨-, -, -, -, hmismatch, hstatus, hack, herror, hcode⟩ := (noRecord_iff s).1 hn
  have hempty : bytesOf s.rx = [] := List.eq_nil_of_length_eq_zero (hb.rx.length.trans hlen)
  refine inv_completed ⟨hb.req, hb.tx, hb.rx, hb.reqLen, hb.txLen, hb.txIdx, hb.rxLen⟩ ⟨ht.gap, ht.read⟩ rfl rfl ?_
  refine ⟨?classFlags, ?checksum, fun h => ?sum, ?notConnected, ?refused, ?ioError⟩
  case classFlags =>
    rw [completeCommand_rx, hempty, setClass_eq_self_iff]
    exact ⟨hstatus, hack, herror, hcode⟩
  case checksum => simp [hmismatch, hlen]
  case sum => simp [hlen] at h
  all_goals
    rintro (rfl : _ = true)
    simp_all

/-- The three errors that complete a command at once keep the invariant on a clear record without a response. -/
theorem inv_raiseError {s : State} (hb : BuffersFit s) (ht : TimersBounded s) (hn : NoRecord s) (hlen : s.rxLen = 0)
    {k : ErrorKind} (hk : k = .notConnected ∨ k = .refused ∨ k = .ioError) : Inv (raiseError k s) := by
  obtain ⟨-, hnotConnected, hrefused, hioError, -⟩ := (noRecord_iff s).1 hn
  obtain rfl | rfl | rfl := hk
  · exact inv_endedEarly (a := true) (b := s.fRefused) (c := s.fIoError) hb ht hn hlen (by simp [hrefused, hioError])
  · exact inv_endedEarly (a := s.fNotConnected) (b := true) (c := s.fIoError) hb ht hn hlen
      (by simp [hnotConnected, hioError])
  · exact inv_endedEarly (a := s.fNotConnected) (b := s.fRefused) (c := true) hb ht hn hlen
      (by simp [hnotConnected, hrefused])

/-! ### Phase IDLE -/

theorem buffersFit_acceptCommand {s : State} (h : BuffersFit s) : BuffersFit (acceptCommand s) :=
  ⟨h.req, h.tx, rfl, h.reqLen, h.txLen, h.txIdx, Nat.zero_le _⟩

/-- The accepted transfer is in flight, nothing of it on the wire yet. -/
theorem inv_startedTransfer {kind obj : Byte} {data : List Byte} {s : State} (hb : BuffersFit s) (ht : TimersBounded s)
    (hl : s.link = .opened) (hn : NoRecord s) (hlen : s.rxLen = 0) (hk : legalKind kind = true)
    (hd : data.length ≤ Config.maxTxData) : Inv (startedTransfer kind obj data s) where
  buffers := by
    have htx : 5 + data.length ≤ Config.txBufSize := Nat.add_le_add_left hd 5
    have hfill := filledTo_cellsFrom (encodeTelegram kind 0 obj data)
    rw [encodeTelegram_length] at hfill
    exact ⟨filledTo_cellsFrom data, hfill, hb.rx, hd, .inr ⟨Nat.le_add_right 5 _, htx⟩, hb.txIdx, hb.rxLen⟩
  timers := ⟨ht.gap, ht.read⟩
  inFlight _ := by
    refine ⟨hl, (noRecord_iff _).2 ((noRecord_iff s).1 hn), hk, rfl, ?_⟩
    simp only [startedTransfer, bytesOf_cellsFrom]
  wire := ⟨fun _ => hlen, nofun, nofun⟩
  results hd := by
    obtain ⟨hdone, -⟩ := (noRecord_iff s).1 hn
    cases hd.symm.trans hdone
  fresh _ := (noRecord_iff _).2 ((noRecord_iff s).1 hn)

/-- Whatever comes of a command, it keeps the invariant. -/
theorem inv_leftByCommand {c : HostCommand} {s t : State} (h : Inv s)
    (ht : LeftByCommand c s t) : Inv t := by
  have hb := buffersFit_acceptCommand h.buffers
  have htimers : TimersBounded (acceptCommand s) := ⟨h.timers.gap, h.timers.read⟩
  have hn : NoRecord (acceptCommand s) := rfl
  cases ht with
  | opens hc hl =>
    exact inv_endedEarly (s := { acceptCommand s with link := .opened, gapArmed := false })
      ⟨hb.req, hb.tx, hb.rx, hb.reqLen, hb.txLen, hb.txIdx, hb.rxLen⟩ ⟨htimers.gap, htimers.read⟩ rfl rfl
      (a := false) (b := false) (c := false) rfl
  | closes hc hl =>
    exact inv_endedEarly (s := { acceptCommand s with link := .closed })
      ⟨hb.req, hb.tx, hb.rx, hb.reqLen, hb.txLen, hb.txIdx, hb.rxLen⟩ ⟨htimers.gap, htimers.read⟩ rfl rfl
      (a := false) (b := false) (c := false) rfl
  | notConnected hl => exact inv_raiseError hb htimers hn rfl (.inl rfl)
  | refused hno => exact inv_raiseError hb htimers hn rfl (.inr (.inl rfl))
  | starts kind obj data hstarts hk hd =>
    obtain ⟨hl, -⟩ := hstarts
    exact inv_startedTransfer hb htimers hl hn rfl hk hd

/-! ### The phases of a transfer -/

/-- What is in flight does not depend on what the framer moves. -/
theorem InFlight.moved {s : State} (h : InFlight s) (txIdx rxTimer gapTimer : Nat) (phase : Phase) (gapArmed : Bool)
    (wireOut : List Byte) :
    InFlight { s with
      txIdx := txIdx, rxTimer := rxTimer, gapTimer := gapTimer, phase := phase, gapArmed := gapArmed
      wireOut := wireOut } :=
  ⟨h.linkOpen, (noRecord_iff _).2 ((noRecord_iff s).1 h.noRecord), h.kind, h.node, h.telegram⟩

/-- TX holds as many bytes as the telegram of the latched request. -/
theorem InFlight.txLen_eq {s : State} (h : InFlight s) (hb : BuffersFit s) : s.txLen = 5 + s.reqDlen := by
  rw [← hb.tx.length, h.telegram, encodeTelegram_length, hb.req.length]

/-- In a phase other than IDLE the framer's own moves owe the buffers, the timers and the wire. -/
theorem inv_moved {s : State} (hf : InFlight s) (hb : BuffersFit s) (ht : TimersBounded s) (hw : WireMatches s) : Inv s where
  buffers := hb
  timers := ht
  inFlight _ := hf
  wire := hw
  results hd := by
    obtain ⟨hdone, -⟩ := (noRecord_iff s).1 hf.noRecord
    cases hd.symm.trans hdone
  fresh _ := hf.noRecord

theorem inv_moveGap {s t : State} (h : Inv s) (hp : s.phase = .gap) (ht : moveGap s = .next t) : Inv t := by
  obtain ⟨-, rfl⟩ | ⟨-, rfl⟩ := moveGap_cases ht
  · have hf := h.inFlight (by simp [hp])
    have hlen := hf.txLen_eq h.buffers
    have hb := h.buffers
    refine inv_moved (hf.moved 0 _ _ _ _ _) ⟨hb.req, hb.tx, hb.rx, hb.reqLen, hb.txLen, Nat.zero_le _, hb.rxLen⟩
      ⟨h.timers.gap, h.timers.read⟩ ⟨nofun, fun _ => ⟨?_, List.nil_suffix⟩, by simp⟩
    exact hlen ▸ (by omega : 0 < 5 + s.reqDlen)
  · exact h

/-- The byte handed over lengthens what is on the wire of the telegram by one. -/
theorem take_succ_suffix {l w : List Byte} {i : Nat} {b : Byte} (hb : l[i]? = some b) (h : l.take i <:+ w) :
    l.take (i + 1) <:+ w ++ [b] := by
  obtain ⟨p, rfl⟩ := h
  exact ⟨p, by rw [List.take_add_one, hb, List.append_assoc]; rfl⟩

theorem inv_handOver {s : State} {b : Byte} (h : Inv s) (hp : s.phase = .tx)
    (hread : readByte .tx s.txIdx s = .ok b) : Inv (handOver b s) := by
  have hf := h.inFlight (by simp [hp])
  have hb := h.buffers
  obtain ⟨hidx, hsent⟩ := h.wire.tx hp
  have hsize : s.txIdx + 1 ≤ Config.txBufSize := hidx.trans_le hb.txLen_le
  obtain ⟨b', hb', hread'⟩ := hb.readTx hidx
  cases hread.symm.trans hread'
  have hsent' := take_succ_suffix hb' hsent
  by_cases hlast : s.txIdx + 1 = s.txLen
  · rw [handOver_last hlast]
    refine inv_moved (hf.moved _ _ _ _ _ _) ⟨hb.req, hb.tx, hb.rx, hb.reqLen, hb.txLen, hsize, hb.rxLen⟩
      ⟨Nat.zero_le _, Nat.zero_le _⟩ ⟨nofun, nofun, fun _ => ⟨hlast, rfl, ?_⟩⟩
    rwa [hlast, ← hb.tx.length, List.take_length] at hsent'
  · rw [handOver_notLast hlast]
    exact inv_moved (hf.moved _ _ _ _ _ _) ⟨hb.req, hb.tx, hb.rx, hb.reqLen, hb.txLen, hsize, hb.rxLen⟩
      ⟨h.timers.gap, h.timers.read⟩
      ⟨fun hgap => by simp [hp] at hgap, fun _ => ⟨Nat.lt_of_le_of_ne hidx hlast, hsent'⟩,
        fun hrx => by simp [hp] at hrx⟩

theorem inv_failWrite {s : State} (h : Inv s) (hp : s.phase = .tx) : Inv (failWrite s) := by
  have hb := h.buffers
  have hn := (h.inFlight (by simp [hp])).noRecord
  exact inv_raiseError (s := clearBuffer .rx { s with rxLen := 0, gapTimer := 0, gapArmed := true })
    ⟨hb.req, hb.tx, rfl, hb.reqLen, hb.txLen, hb.txIdx, Nat.zero_le _⟩ ⟨Nat.zero_le _, h.timers.read⟩
    ((noRecord_iff _).2 ((noRecord_iff s).1 hn)) rfl (.inr (.inr rfl))

theorem inv_moveTx {ready fail : Bool} {s t : State} (h : Inv s) (hp : s.phase = .tx)
    (ht : moveTx ready fail s = .next t) : Inv t := by
  obtain ⟨-, rfl⟩ | ⟨-, -, b, hread, rfl⟩ | ⟨-, -, rfl⟩ := moveTx_cases ht
  · exact inv_failWrite h hp
  · exact inv_handOver h hp hread
  · exact h

/-- Phase RX is left for CHECK, or the read goes on (R144). -/
theorem moveRx_cases {s t : State} (h : moveRx s = .next t) :
    (readEnded s = true ∧ t = { s with phase := .check }) ∨ (readEnded s = false ∧ t = s) := by
  cases hended : readEnded s <;> simp only [moveRx, hended] at h <;> cases h
  · exact .inr ⟨rfl, rfl⟩
  · exact .inl ⟨rfl, rfl⟩

theorem inv_moveRx {s t : State} (h : Inv s) (hp : s.phase = .rx) (ht : moveRx s = .next t) : Inv t := by
  obtain ⟨-, rfl⟩ | ⟨-, rfl⟩ := moveRx_cases ht
  · have hf := h.inFlight (by simp [hp])
    have hb := h.buffers
    exact inv_moved (hf.moved _ _ _ _ _ _) ⟨hb.req, hb.tx, hb.rx, hb.reqLen, hb.txLen, hb.txIdx, hb.rxLen⟩
      ⟨h.timers.gap, h.timers.read⟩ ⟨nofun, nofun, fun _ => h.wire.rx (.inl hp)⟩
  · exact h

/-- The flags of a checked response are what the decoder says of it (R15, R110, R112). -/
theorem inv_checked {s : State} (h : Inv s) (hp : s.phase = .check) (hr : bytesOf s.rx ≠ []) :
    Inv (completeCommand (setClass (classify (bytesOf s.rx)) (verifyResponse (bytesOf s.rx) s))) := by
  obtain ⟨-, hnotConnected, hrefused, hioError, -⟩ := (noRecord_iff s).1 (h.inFlight (by simp [hp])).noRecord
  have hb := h.buffers
  have hlen := hb.rx.length
  have hpos : 0 < s.rxLen := hlen ▸ List.length_pos_iff.2 hr
  rw [setClass_eq, verifyResponse_eq]
  refine inv_completed ⟨hb.req, hb.tx, hb.rx, hb.reqLen, hb.txLen, hb.txIdx, hb.rxLen⟩ ⟨h.timers.gap, h.timers.read⟩
    rfl rfl ⟨?classFlags, ?checksum, fun h2 => ?sum, ?notConnected, ?refused, ?ioError⟩
  case classFlags =>
    change setClass (classify (bytesOf s.rx)) _ = _
    rw [setClass_eq_self_iff]
    cases classify (bytesOf s.rx) <;> exact ⟨rfl, rfl, rfl, rfl⟩
  case checksum => simp [hpos]
  case sum => exact if_neg (by rw [hlen]; exact Nat.not_lt.2 h2)
  case notConnected => exact fun e => by cases hnotConnected.symm.trans e
  case refused => exact fun e => by cases hrefused.symm.trans e
  case ioError => exact fun e => by cases hioError.symm.trans e

theorem inv_moveCheck {s t : State} (h : Inv s) (hp : s.phase = .check) (ht : moveCheck s = .next t) : Inv t := by
  obtain ⟨hr, rfl⟩ | ⟨r, hne, hr, rfl⟩ := moveCheck_cases hp ht
  all_goals
    rw [h.buffers.response] at hr
    injection hr with hr
  · have hlen : s.rxLen = 0 := by rw [← h.buffers.rx.length, hr, List.length_nil]
    exact inv_raiseError h.buffers h.timers (h.inFlight (by simp [hp])).noRecord hlen (.inr (.inr rfl))
  · subst hr
    exact inv_checked h hp hne

/-- Every move of the framer keeps the invariant. -/
theorem inv_move {m : Moment} {s t : State} (h : Inv s) (ht : move m s = .next t) : Inv t := by
  cases hp : s.phase <;> simp only [move, hp] at ht
  case idle =>
    obtain ⟨u, hu, ⟨-, rfl⟩ | ⟨k, -, hleft⟩⟩ := moveIdle_cases m.command hp
    · cases hu.symm.trans ht; exact h
    · cases hu.symm.trans ht; exact inv_leftByCommand h hleft
  case gap => exact inv_moveGap h hp ht
  case tx => exact inv_moveTx h hp ht
  case rx => exact inv_moveRx h hp ht
  case check => exact inv_moveCheck h hp ht

theorem inv_step {s t : State} (h : Inv s) (ht : step s = .next t) : Inv t := by
  cases hreset : (nextMoment s).reset with
  | true => rw [step_reset hreset] at ht; cases ht; exact inv_resetBlock _
  | false => rw [step_move hreset] at ht; exact inv_move (inv_observe h _) ht

/-- Settles O49: a reset meets it, and what comes before the move keeps it as the move does. -/
theorem everyStepKeepsTheInvariant : Obligations.EveryStepKeepsTheInvariant := by
  unfold Obligations.EveryStepKeepsTheInvariant
  exact fun s t => inv_step

/-! ### No run stops -/

/-- Where the invariant holds, every byte a move reads has a value. -/
theorem move_next {s : State} (h : Inv s) (m : Moment) : ∃ t, move m s = .next t := by
  obtain hnext | ⟨f, -, ⟨hp, hread⟩ | ⟨hp, hread⟩⟩ := move_next_or_fault m s
  · exact hnext
  · obtain ⟨b, -, hb⟩ := h.buffers.readTx (h.wire.tx hp).1
    cases hread.symm.trans hb
  · cases hread.symm.trans h.buffers.response

theorem step_next {s : State} (h : Inv s) : ∃ t, step s = .next t := by
  cases hreset : (nextMoment s).reset with
  | true => exact ⟨_, step_reset hreset⟩
  | false => rw [step_move hreset]; exact move_next (inv_observe h _) _

/-- Settles O50, by induction on the length of the run. -/
theorem theBlockNeverStops : Obligations.TheBlockNeverStops := by
  unfold Obligations.TheBlockNeverStops
  intro s n h
  induction n generalizing s with
  | zero => exact ⟨s, rfl⟩
  | succ n ih =>
    obtain ⟨u, hu⟩ := step_next h
    obtain ⟨t, ht⟩ := ih u (inv_step h hu)
    exact ⟨t, (run_next n hu).trans ht⟩

/-! ### What the host reads of a completed command -/

/-- Settles O45: the class flags are those of the response kept, which a command that ended early does not have. -/
theorem flagsAreConsistentWhenDone : Obligations.FlagsAreConsistentWhenDone := by
  unfold Obligations.FlagsAreConsistentWhenDone
  intro s h hd
  have hr := h.results hd
  have hclass := (setClass_eq_self_iff _ _).1 hr.classFlags
  have hnone (hlen : s.rxLen = 0) : s.fCsMismatch = false ∧ s.fIsStatus = false ∧ s.fAck = false ∧
      s.fDevError = false ∧ s.code = 0 := by
    have hempty : bytesOf s.rx = [] := List.eq_nil_of_length_eq_zero (h.buffers.rx.length.trans hlen)
    rw [hempty] at hclass
    exact ⟨by simp [hr.checksum, hlen], hclass⟩
  refine ⟨?exclusive, ?status, ?early, ?ioError⟩
  case exclusive => cases hc : classify (bytesOf s.rx) <;> simp_all
  case status => cases hc : classify (bytesOf s.rx) <;> simp_all
  case early =>
    rintro (hflag | hflag)
    · obtain ⟨hrefused, hio, hlen⟩ := hr.notConnected hflag
      obtain ⟨h1, h2, h3, h4, h5⟩ := hnone hlen
      exact ⟨hio, h1, h2, h3, h4, h5, by simp [hrefused], hlen⟩
    · obtain ⟨hconnected, hio, hlen⟩ := hr.refused hflag
      obtain ⟨h1, h2, h3, h4, h5⟩ := hnone hlen
      exact ⟨hio, h1, h2, h3, h4, h5, by simp [hconnected], hlen⟩
  case ioError =>
    intro hflag
    obtain ⟨-, -, hlen⟩ := hr.ioError hflag
    obtain ⟨h1, h2, h3, h4, -⟩ := hnone hlen
    exact ⟨hlen, h1, h2, h3, h4⟩

/-- The outcome is defined once the command is done (R16). -/
theorem outcome_of_done {s : State} (h : s.done = true) : ∃ o, outcome s = some o := by
  rw [outcome, if_neg (by simp [h])]
  repeat' split
  all_goals exact ⟨_, rfl⟩

/-- Settles O47: `done` guards every read, `rx_len` those of RX, and the invariant gives the byte below it. -/
theorem hostReadsOnlyWhatHasAValue : Obligations.HostReadsOnlyWhatHasAValue := by
  unfold Obligations.HostReadsOnlyWhatHasAValue
  intro s i
  refine ⟨fun hd => ?registers, fun hd flag => ?notDone, fun hd => ?allNotDone, fun hd hi => ?past, fun h hd hi => ?byte⟩
  case registers =>
    obtain ⟨o, ho⟩ := outcome_of_done hd
    exact ⟨if_pos hd, if_pos hd, fun flag => if_pos hd, o, ho, by rw [hostOutcome, ho]⟩
  case notDone => simp [hostRead, hd]
  case allNotDone => simp [hostRx, hostRxLen, hostCode, hostRead, hostOutcome, outcome, hd]
  case past => simp [hostRx, hd, Nat.not_lt.2 hi]
  case byte =>
    have hlen := h.buffers.rx.length
    have hi' : i < (bytesOf s.rx).length := hlen.symm ▸ hi
    refine ⟨_, List.getElem?_eq_getElem hi', ?_⟩
    rw [← readByte_cells (sp := .rx) (s := s) (hlen.trans_le h.buffers.rxLen) h.buffers.rx.cells hi']
    simp [hostRx, hd, hi]

end Sys2Proof.Machine
end

section
/-!
PROOFS. The instructions one by one: ENCODE (R100), VERIFY_CHECKSUM and IS_ERROR (R110, R112), the response classes
(R146), the commands (R101, R102, R134), and where a missing byte stops them (U5).
-/

namespace Sys2Proof.Machine

/-! ### ENCODE -/

theorem legalRequest_iff (s : State) :
    legalRequest s = true ↔ legalKind s.reqKind = true ∧ s.reqDlen ≤ Config.maxTxData := by
  simp [legalRequest]

/-- The length adjustment as R100 writes it. -/
theorem lengthAdjust_length (data : List Byte) :
    lengthAdjust data.length = if data = [] then 0 else BitVec.ofNat 8 (data.length - 1) := by
  simp [lengthAdjust, List.length_eq_zero_iff]

/-- Settles O18: the telegram written is the body with its sum behind it. -/
theorem encodeWritesTheTelegram : Obligations.EncodeWritesTheTelegram := by
  unfold Obligations.EncodeWritesTheTelegram
  intro s data hk hd hdata
  have hlegal : legalRequest s = true := (legalRequest_iff s).2 ⟨(legalKind_iff s.reqKind).2 hk, hd⟩
  have hlen : data.length = s.reqDlen := readBytes_length hdata
  refine ⟨requestBody s.reqKind s.reqNode s.reqObj data, _, ?body, sum16_toNat _, ?exec⟩
  case body => rw [requestBody, startDelimiter, lengthAdjust_length]; rfl
  case exec => exact (encodeRequest_eq hlegal hdata).trans (by rw [hlen]; rfl)

/-- Settles O19: a kind or a length that `encode` has no meaning for makes the descriptor illegal. -/
theorem encodeRefusesIllegalDescriptors : Obligations.EncodeRefusesIllegalDescriptors := by
  unfold Obligations.EncodeRefusesIllegalDescriptors
  intro s hbad
  refine if_neg fun hlegal => ?_
  obtain ⟨hk, hd⟩ := (legalRequest_iff s).1 hlegal
  obtain hkind | hlong := hbad
  · rw [(legalKind_false_iff s.reqKind).2 hkind] at hk
    cases hk
  · exact absurd hd (Nat.not_le.2 hlong)

/-! ### VERIFY_CHECKSUM -/

/-- What `verify_checksum` says in integers (R110): the last two bytes, high byte first, are the sum of the others. -/
theorem checksumGood_iff_sum (r : List Byte) :
    checksumGood r = true ↔ ∃ hi lo, r = summedPart r ++ [hi, lo] ∧
      hi.toNat * 256 + lo.toNat = ((summedPart r).map BitVec.toNat).sum % 65536 := by
  by_cases hlen : r.length < 2
  · rw [checksumGood_short hlen]
    refine iff_of_false Bool.false_ne_true ?_
    rintro ⟨hi, lo, e, -⟩
    have := congrArg List.length e
    simp only [List.length_append, List.length_cons, List.length_nil] at this
    omega
  · obtain ⟨hi, lo, e, -⟩ := eq_summedPart_append (Nat.not_lt.1 hlen)
    generalize summedPart r = body at e
    subst e
    simp only [checksumGood_append, decide_eq_true_eq, ← be16_toNat, ← sum16_toNat, List.append_cancel_left_eq,
      BitVec.toNat_inj, List.cons.injEq, and_true]
    refine ⟨fun h => ⟨hi, lo, ⟨rfl, rfl⟩, h⟩, ?_⟩
    rintro ⟨_, _, ⟨rfl, rfl⟩, h⟩
    exact h

/-- Settles O20: the verdict in integers, and the state as VERIFY_CHECKSUM leaves it. -/
theorem verifyChecksumWritesItsFlag : Obligations.VerifyChecksumWritesItsFlag := by
  unfold Obligations.VerifyChecksumWritesItsFlag
  intro s r hr
  refine ⟨checksumGood r, checksumGood_iff_sum r, ?_⟩
  rw [exec_verifyChecksum hr, verifyResponse_eq]
  rfl

/-! ### IS_ERROR -/

theorem isStatus_iff (r : List Byte) : isStatus r = true ↔ ∃ a b c tail, r = a :: b :: 0xFF :: c :: tail := by
  constructor
  · intro h
    match r, h with
    | a :: b :: m :: c :: tail, h => exact ⟨a, b, c, tail, by rw [eq_of_beq h]; rfl⟩
  · rintro ⟨a, b, c, tail, rfl⟩
    rfl

theorem classify_status (a b c : Byte) (tail : List Byte) :
    classify (a :: b :: 0xFF :: c :: tail) = if c = 0 then .ack else .deviceError c := rfl

theorem classify_notStatus {r : List Byte} (h : ∀ a b c tail, r ≠ a :: b :: 0xFF :: c :: tail) :
    classify r = .notStatus := by
  have hs : isStatus r = false := by
    rw [← Bool.not_eq_true, isStatus_iff]
    rintro ⟨a, b, c, tail, rfl⟩
    exact h a b c tail rfl
  simp [classify, statusCode, hs]

/-- Settles O21: the class of the response says which of the three records is written. -/
theorem isErrorWritesTheClass : Obligations.IsErrorWritesTheClass := by
  unfold Obligations.IsErrorWritesTheClass
  intro s r hr
  rw [exec_isError hr]
  refine ⟨?status, fun h => ?notStatus⟩
  case status =>
    rintro a b c tail rfl
    rw [classify_status]
    by_cases hc : c = 0
    · simp [hc, setClass, Config.codeAck]
    · rw [if_neg hc]; simpa [setClass] using hc
  case notStatus => rw [classify_notStatus h]; rfl

/-! ### The response classes -/

/-- The sum of a response of two bytes or more is in U1 after VERIFY_CHECKSUM. -/
theorem verifyResponse_long {r : List Byte} (s : State) (h : 2 ≤ r.length) :
    verifyResponse r s =
      { s with
        csAcc := sum16 (summedPart r), csOut := some (hi8 (sum16 (summedPart r)), lo8 (sum16 (summedPart r)))
        fCsMismatch := !checksumGood r } := by
  rw [verifyResponse_eq, if_neg (Nat.not_lt.2 h), if_neg (Nat.not_lt.2 h)]

/-- Settles O23: both checks and completion, for each class. -/
theorem responseClassesComplete : Obligations.ResponseClassesComplete := by
  unfold Obligations.ResponseClassesComplete
  refine ⟨fun a b tail s hp => ⟨_, _, _, rfl, rfl, rfl, ?ack⟩,
    fun a b c tail s hp hc => ⟨_, _, _, rfl, rfl, rfl, ?error⟩, fun r s hp hwf => ?data⟩
  case ack =>
    refine (checkResponse_eq hp).trans ?_
    rw [verifyResponse_long s (Nat.le_add_left 2 _)]
    rfl
  case error =>
    refine (checkResponse_eq hp).trans ?_
    rw [verifyResponse_long s (Nat.le_add_left 2 _)]
    rfl
  case data =>
    refine (checkResponse_eq hp).trans ?_
    rw [verifyResponse_eq]
    rfl

/-! ### Missing bytes -/

theorem readByte_noValue {sp : Space} {a : Nat} {s : State} (ha : a < sp.size) (h : (s.buffer sp).read a = none) :
    readByte sp a s = .error (.noValue sp a) := by
  simp [readByte, ha, h]

theorem readByte_outside {sp : Space} {a : Nat} {s : State} (ha : sp.size ≤ a) :
    readByte sp a s = .error (.outsideBuffer sp a) := by
  simp [readByte, Nat.not_lt.2 ha]

/-- A read faults only on a byte without a value or outside its buffer, and names it. -/
theorem readByte_error_cases {sp : Space} {a : Nat} {s : State} {f : Fault} (h : readByte sp a s = .error f) :
    (f = .noValue sp a ∧ a < sp.size ∧ (s.buffer sp).read a = none) ∨ (f = .outsideBuffer sp a ∧ sp.size ≤ a) := by
  by_cases ha : a < sp.size
  · cases hread : (s.buffer sp).read a with
    | none => rw [readByte_noValue ha hread] at h; cases h; exact .inl ⟨rfl, ha, rfl⟩
    | some b => simp [readByte, ha, hread] at h
  · rw [readByte_outside (Nat.not_lt.1 ha)] at h; cases h; exact .inr ⟨rfl, Nat.not_lt.1 ha⟩

/-- A run of reads faults on the first byte that faults. -/
theorem readBytes_error_cases {sp : Space} {a n : Nat} {s : State} {f : Fault} (h : readBytes sp a n s = .error f) :
    ∃ i, a ≤ i ∧ i < a + n ∧ readByte sp i s = .error f := by
  induction n generalizing a with
  | zero => cases h
  | succ n ih =>
    rw [readBytes] at h
    cases hb : readByte sp a s with
    | error g => rw [hb] at h; cases h; exact ⟨a, le_rfl, by omega, hb⟩
    | ok b =>
      rw [hb] at h
      cases hbs : readBytes sp (a + 1) n s with
      | error g =>
        simp only [hbs] at h
        cases h
        obtain ⟨i, hle, hlt, hread⟩ := ih hbs
        exact ⟨i, by omega, by omega, hread⟩
      | ok bs => simp only [hbs] at h; cases h

/-- A run of reads over a byte that faults, faults. -/
theorem readBytes_error {sp : Space} {a n i : Nat} {s : State} {f : Fault} (hle : a ≤ i) (hlt : i < a + n)
    (h : readByte sp i s = .error f) : ∃ g, readBytes sp a n s = .error g := by
  induction n generalizing a with
  | zero => omega
  | succ n ih =>
    rw [readBytes]
    cases hb : readByte sp a s with
    | error g => exact ⟨g, rfl⟩
    | ok b =>
      have hne : a ≠ i := by rintro rfl; cases hb.symm.trans h
      obtain ⟨g, hg⟩ := ih (a := a + 1) (by omega) (by omega)
      exact ⟨g, by simp only [hg]⟩

/-- An operation on what was read faults exactly with the read. -/
theorem withRead_next_eq_fault_iff {α : Type} {x : Except Fault α} {g : α → State} {f : Fault} :
    withRead x (fun a => .next (g a)) = .fault f ↔ x = .error f := by
  cases x <;> simp [withRead]

theorem exec_verifyChecksum_eq_fault_iff {s : State} {f : Fault} :
    exec .verifyChecksum s = .fault f ↔ response s = .error f := withRead_next_eq_fault_iff

theorem exec_isError_eq_fault_iff {s : State} {f : Fault} :
    exec .isError s = .fault f ↔ response s = .error f := withRead_next_eq_fault_iff

theorem exec_rspFields_eq_fault_iff {s : State} {f : Fault} :
    exec .rspFields s = .fault f ↔ response s = .error f := withRead_next_eq_fault_iff

/-- ENCODE faults exactly when its descriptor is legal and its data cannot be read. -/
theorem exec_encode_eq_fault_iff {s : State} {f : Fault} :
    exec .encode s = .fault f ↔ legalRequest s = true ∧ requestData s = .error f := by
  change encodeRequest s = _ ↔ _
  rw [encodeRequest]
  split_ifs with h
  · simp only [withRead_next_eq_fault_iff, h, true_and]
  · simp [h]

/-- Settles O24: the operations fault with the reads of their buffer, and those with the first byte that has no value. -/
theorem missingBytesAreFaults : Obligations.MissingBytesAreFaults := by
  unfold Obligations.MissingBytesAreFaults
  intro s
  refine ⟨fun sp a => readByte_noValue, fun sp a => readByte_outside, fun a ha hmissing => ?response,
    fun a ha hmissing hk hd => ?encode, fun f hf => ?responseOnly, fun f hf => ?encodeOnly⟩
  case response =>
    obtain ⟨g, hg⟩ : ∃ g, readByte .rx a s = .error g := by
      by_cases hin : a < Space.rx.size
      · exact ⟨_, readByte_noValue hin (hmissing.resolve_right (Nat.not_le.2 hin))⟩
      · exact ⟨_, readByte_outside (Nat.not_lt.1 hin)⟩
    obtain ⟨f, hf⟩ := readBytes_error (a := 0) (n := s.rxLen) (Nat.zero_le a) (by omega) hg
    exact ⟨f, exec_verifyChecksum_eq_fault_iff.2 hf, exec_isError_eq_fault_iff.2 hf, exec_rspFields_eq_fault_iff.2 hf⟩
  case encode =>
    have hread := readByte_noValue (sp := .req) (s := s) (ha.trans_le hd) hmissing
    obtain ⟨f, hf⟩ := readBytes_error (a := 0) (n := s.reqDlen) (Nat.zero_le a) (by omega) hread
    exact ⟨f, exec_encode_eq_fault_iff.2 ⟨(legalRequest_iff s).2 ⟨(legalKind_iff s.reqKind).2 hk, hd⟩, hf⟩⟩
  case responseOnly =>
    rw [exec_verifyChecksum_eq_fault_iff, exec_isError_eq_fault_iff, exec_rspFields_eq_fault_iff, or_self, or_self] at hf
    obtain ⟨i, -, hlt, hread⟩ := readBytes_error_cases hf
    exact ⟨i, by omega, readByte_error_cases hread⟩
  case encodeOnly =>
    obtain ⟨hlegal, hdata⟩ := exec_encode_eq_fault_iff.1 hf
    obtain ⟨-, hd⟩ := (legalRequest_iff s).1 hlegal
    obtain ⟨i, -, hlt, hread⟩ := readBytes_error_cases hdata
    have hin : i < s.reqDlen := by omega
    obtain ⟨hname, -, hnone⟩ | ⟨-, hout⟩ := readByte_error_cases hread
    · exact ⟨i, hin, hname, hnone⟩
    · exact absurd (hin.trans_le hd) (Nat.not_lt.2 hout)

/-! ### The header bytes -/

theorem classify_header (a b a' b' : Byte) (rest : List Byte) :
    classify (a :: b :: rest) = classify (a' :: b' :: rest) := by
  match rest with
  | [] => rfl
  | [_] => rfl
  | _ :: _ :: _ => rfl

/-- SUM16 sees two bytes in front through their sum only. -/
theorem sum16_header {a b a' b' : Byte} (rest : List Byte) (h : a.toNat + b.toNat = a'.toNat + b'.toNat) :
    sum16 (a :: b :: rest) = sum16 (a' :: b' :: rest) := by
  apply BitVec.eq_of_toNat_eq
  simp only [sum16_toNat, List.map_cons, List.sum_cons, ← Nat.add_assoc, h]

/-- Settles O26: the class reads bytes 2 and 3, the verdict the sum. -/
theorem headerBytesAreOnlySummed : Obligations.HeaderBytesAreOnlySummed := by
  unfold Obligations.HeaderBytesAreOnlySummed
  refine fun a b a' b' rest => ⟨classify_header a b a' b' rest, fun hlen hsum => ?_⟩
  obtain ⟨hi, lo, e, -⟩ := eq_summedPart_append hlen
  rw [e, ← List.cons_append, ← List.cons_append, ← List.cons_append, ← List.cons_append, checksumGood_append,
    checksumGood_append, sum16_header _ hsum]

/-! ### The commands -/

/-- Settles O10: a legal TRANSFER is `transferCommand` of its kind, and so is what it decodes to. -/
theorem kindMakesTransferQueryOrSend : Obligations.KindMakesTransferQueryOrSend := by
  unfold Obligations.KindMakesTransferQueryOrSend
  refine fun obj dlen data s => ⟨fun hd => ?_, fun kind => exec_decodedTransfer kind obj dlen data s⟩
  have hlen := length_presentedData data hd
  exact ⟨by simp only [exec, execQuery, hlen]; rfl, by simp only [exec, execSend, hlen]; rfl⟩

/-- What a command leaves of the record of the last one (R134): nothing but its own early error. -/
theorem LeftByCommand.record {c : HostCommand} {s t : State} (h : LeftByCommand c s t) :
    t.rxLen = 0 ∧ t.rx = [] ∧ t.fIoError = false ∧ t.fCsMismatch = false ∧ t.fIsStatus = false ∧ t.fAck = false ∧
      t.fDevError = false ∧ t.code = 0 := by
  cases h <;> exact ⟨rfl, rfl, rfl, rfl, rfl, rfl, rfl, rfl⟩

/-- Settles O28: acceptance as an equation, and what every command makes of it. -/
theorem acceptanceClearsTheRecord : Obligations.AcceptanceClearsTheRecord := by
  unfold Obligations.AcceptanceClearsTheRecord
  refine fun s => ⟨acceptCommand_eq s, fun c t hp ht => ?_⟩
  obtain ⟨u, hu, hleft⟩ := exec_decodeCommand_idle c hp
  cases hu.symm.trans ht
  obtain ⟨hlen, hrx, hflags⟩ := hleft.record
  exact ⟨hlen, fun a => by rw [hrx, memory_read_nil], hflags⟩

/-- A TRANSFER of a legal kind in phase IDLE, in all its cases (R135, R136). -/
theorem transferCommand_idle {kind obj : Byte} {data : List Byte} {s : State} (hk : legalKind kind = true)
    (hp : s.phase = .idle) :
    (s.link ≠ .opened →
      transferCommand kind obj data.length data s = .next { acceptCommand s with fNotConnected := true, done := true }) ∧
    (s.link = .opened → 16 < data.length →
      transferCommand kind obj data.length data s = .next { acceptCommand s with fRefused := true, done := true }) ∧
    (s.link = .opened → data.length ≤ 16 →
      transferCommand kind obj data.length data s = .next (startedTransfer kind obj data (acceptCommand s))) := by
  have hidle : (acceptCommand s).phase = .idle := hp
  refine ⟨fun hl => ?notConnected, fun hl hd => ?refused, fun hl hd => transferCommand_accepted hp hl hk hd hd⟩
  case notConnected => rw [transferCommand_notConnected hp hl, raiseError_notConnected_of_idle hidle]
  case refused => rw [transferCommand_refused hp hl (.inr hd), raiseError_refused_of_idle hidle]

/-- Settles O33: a TRANSFER of kind `0x40`. -/
theorem queryIsATransferOfItsKind : Obligations.QueryIsATransferOfItsKind := by
  unfold Obligations.QueryIsATransferOfItsKind
  intro obj data s hp
  obtain ⟨hnotConnected, hrefused, hstarts⟩ := transferCommand_idle (kind := 0x40) (obj := obj) (data := data) rfl hp
  exact ⟨hnotConnected, hrefused, fun hl hd => ⟨_, rfl, hstarts hl hd⟩⟩

/-- Settles O34: a TRANSFER of kind `0xC0`. -/
theorem sendIsATransferOfItsKind : Obligations.SendIsATransferOfItsKind := by
  unfold Obligations.SendIsATransferOfItsKind
  intro obj data s hp
  obtain ⟨hnotConnected, hrefused, hstarts⟩ := transferCommand_idle (kind := 0xC0) (obj := obj) (data := data) rfl hp
  exact ⟨hnotConnected, hrefused, fun hl hd => ⟨_, rfl, hstarts hl hd⟩⟩

/-! ### Out of phase -/

theorem exec_decodeCommand_busy (c : HostCommand) {s : State} (hp : s.phase ≠ .idle) :
    exec (decodeCommand c) s = .next s := by
  match c with
  | .openLink => exact if_neg hp
  | .closeLink => exact if_neg hp
  | .transfer kind obj dlen data => rw [exec_decodedTransfer, transferCommand_busy hp]

theorem exec_decodedResponse_outOfPhase {r : List Byte} {i : Instr} {s : State} (hi : decodeResponse r = .ok i)
    (hp : s.phase ≠ .check) : exec i s = .next s := by
  have hr : r ≠ [] := by rintro rfl; cases hi
  obtain ⟨a, b, tail, -, hd, -⟩ | ⟨a, b, code, tail, -, -, hd, -⟩ | ⟨-, hd, -⟩ := decodeResponse_classify hr <;>
    (cases hd.symm.trans hi; exact if_neg hp)

/-- Settles O35: the guard of acceptance for a command, that of phase CHECK for a response class. -/
theorem outOfPhaseNothingHappens : Obligations.OutOfPhaseNothingHappens := by
  unfold Obligations.OutOfPhaseNothingHappens
  exact ⟨fun c s => exec_decodeCommand_busy c,
    fun obj data s hp => ⟨transferCommand_busy hp, transferCommand_busy hp⟩,
    fun r i s hp hi => exec_decodedResponse_outOfPhase hi hp⟩

end Sys2Proof.Machine
end

section
/-!
PROOFS. The step, phase by phase: reset (R220), a presented command (R28), GAP, TX and CHECK (R138 to R146), the timers
(R32), and what no step can do to the wire and to the request (R11, R12, R30).
-/

namespace Sys2Proof.Machine

/-! ### Reset and the two kinds of step that carry out an instruction -/

/-- Settles O2: the step is `resetBlock`. -/
theorem resetSignalRestoresEveryRegister : Obligations.ResetSignalRestoresEveryRegister := by
  unfold Obligations.ResetSignalRestoresEveryRegister
  exact fun s h => ⟨_, step_reset h, rfl, rfl, rfl, rfl, rfl⟩

/-- Settles O3: phase IDLE with and without a command. -/
theorem stepRunsThePresentedCommand : Obligations.StepRunsThePresentedCommand := by
  unfold Obligations.StepRunsThePresentedCommand
  intro s hp hreset
  rw [step_idle hreset hp]
  cases (nextMoment s).command <;> rfl

/-- A response that can be read and decodes is carried out in phase CHECK (R146). -/
theorem moveCheck_decoded {s : State} {r : List Byte} {i : Instr} (hr : response s = .ok r)
    (hi : decodeResponse r = .ok i) : moveCheck s = exec i s := by
  simp only [moveCheck, hr, withRead, hi]

/-- Settles O4: phase CHECK of what was observed. -/
theorem stepRunsTheResponseClass : Obligations.StepRunsTheResponseClass := by
  unfold Obligations.StepRunsTheResponseClass
  intro s r i hp hreset hr hi
  rw [step_check hreset hp, moveCheck_decoded hr hi]

/-! ### Placed instructions -/

/-- A placed command is carried out by the next step. -/
theorem step_placeCommand (c : HostCommand) (s : State) :
    step (placeCommand c s) = exec (decodeCommand c) (dropMoment (placeCommand c s)) := by
  rw [step_idle rfl rfl]
  rfl

/-- A placed response that fits RX is carried out by the next step. -/
theorem step_placeResponse {r : List Byte} {i : Instr} (s : State) (hlen : r.length ≤ 100)
    (hi : decodeResponse r = .ok i) : step (placeResponse r s) = exec i (dropMoment (placeResponse r s)) := by
  have hr : response (dropMoment (placeResponse r s)) = .ok r := readBytes_cells .rx r _ hlen rfl
  rw [step_check rfl rfl]
  exact moveCheck_decoded hr hi

/-- The command that asks for a request telegram's instruction decodes to it (R28). -/
theorem hostCommand_of_decodeRequest {t : List Byte} {i : Instr} (h : decodeRequest t = .ok i) :
    ∃ c, hostCommand i = some c ∧ decodeCommand c = i := by
  obtain ⟨obj, data, hi, lo, hn, ⟨rfl, -⟩ | ⟨rfl, -⟩⟩ := decodeRequest_cases h
  · exact ⟨_, rfl, decodeCommand_presented rfl hn⟩
  · exact ⟨_, rfl, decodeCommand_presented rfl hn⟩

/-- A placed telegram is carried out by the next step. -/
theorem step_placeTelegram {d : Direction} {t : List Byte} {i : Instr} (s : State)
    (hlen : d = .fromDevice → t.length ≤ 100) (h : decode d t = .ok i) :
    step (placeTelegram d t s) = exec i (dropMoment (placeTelegram d t s)) := by
  cases d with
  | fromDevice => exact step_placeResponse s (hlen rfl) h
  | toDevice =>
    replace h : decodeRequest t = .ok i := h
    obtain ⟨c, hc, hci⟩ := hostCommand_of_decodeRequest h
    have hplace : placeTelegram .toDevice t s = placeCommand c s := by
      simp only [placeTelegram, h, Except.toOption, Option.bind, hc]
    rw [hplace, step_placeCommand, hci]

/-- A response row of the table makes six bytes (log entry 12). -/
theorem tableBytes_fromDevice {nbits w : Nat} {t : List Byte} (h : tableBytes nbits w = some (.fromDevice, t)) :
    t.length = 6 := by
  unfold tableBytes at h
  split_ifs at h
  · cases h
  · cases h; rfl

/-- Settles O5: the table word's telegram, placed, is carried out. -/
theorem stepRunsAPlacedTableWord : Obligations.StepRunsAPlacedTableWord := by
  unfold Obligations.StepRunsAPlacedTableWord
  intro s nbits w i h
  rw [decodeTableWord] at h
  cases hbytes : tableBytes nbits w with
  | none => rw [hbytes] at h; cases h
  | some dt =>
    obtain ⟨d, t⟩ := dt
    simp only [hbytes] at h
    cases hdecode : decode d t with
    | error e => rw [hdecode] at h; cases h
    | ok j =>
      rw [hdecode] at h
      cases h
      have hplace : s.withFetchWord nbits w = placeTelegram d t s := by simp only [State.withFetchWord, hbytes]
      rw [hplace]
      refine step_placeTelegram s (fun hd => ?_) hdecode
      rw [tableBytes_fromDevice (hd ▸ hbytes)]
      decide

/-! ### The parameter of a step -/

/-- A busy block does not look at the command presented (R51, R150). -/
theorem move_command {m : Moment} {s : State} (c : Option HostCommand) (hp : s.phase ≠ .idle) :
    move { m with command := c } s = move m s := by
  cases hq : s.phase <;> simp only [move, hq]
  exact absurd hq hp

/-- Settles O36: only phase IDLE reads the command. -/
theorem commandWhileBusyHasNoEffect : Obligations.CommandWhileBusyHasNoEffect := by
  unfold Obligations.CommandWhileBusyHasNoEffect
  intro s m rest c hp
  rw [step_placed, step_placed, runMoment, runMoment,
    ← move_command (m := m) c (s := observe m { s with moments := rest, momentCount := s.momentCount + 1 })
      (by simpa using hp)]
  rfl

/-- The state with other signals around its block. -/
def State.withSignals (s : State) (ms : List Moment) (n : Nat) : State := { s with moments := ms, momentCount := n }

/-- An outcome with other signals around the block of its next state. -/
def outcomeWithSignals (ms : List Moment) (n : Nat) : Host.Outcome State Fault Refusal → Host.Outcome State Fault Refusal
  | .next t => .next (t.withSignals ms n)
  | .fault f => .fault f
  | .refused r => .refused r

section
variable (ms : List Moment) (n : Nat)

theorem observe_withSignals (m : Moment) (s : State) :
    observe m (s.withSignals ms n) = (observe m s).withSignals ms n := by
  have hreceive : receive m.received (s.withSignals ms n) = (receive m.received s).withSignals ms n := by
    cases m.received with
    | none => rfl
    | some b =>
      have hwindow : windowOpen (s.withSignals ms n) = windowOpen s := rfl
      cases h : windowOpen s with
      | true => simp only [receive, receiveByte_open h, receiveByte_open (hwindow.trans h)]; rfl
      | false => simp only [receive, receiveByte_closed h, receiveByte_closed (hwindow.trans h)]
  rw [observe, observe, hreceive]
  cases m.tick <;> rfl

theorem transferCommand_withSignals {kind obj : Byte} {dlen : Nat} {data : List Byte} {s : State}
    (hp : s.phase = .idle) (hlen : dlen ≤ Config.maxTxData → data.length ≤ Config.maxTxData) :
    transferCommand kind obj dlen data (s.withSignals ms n) =
      outcomeWithSignals ms n (transferCommand kind obj dlen data s) := by
  by_cases hl : s.link = .opened
  · by_cases hlegal : legalKind kind = true ∧ dlen ≤ Config.maxTxData
    · obtain ⟨hk, hd⟩ := hlegal
      rw [transferCommand_accepted hp hl hk hd (hlen hd),
        transferCommand_accepted (s := s.withSignals ms n) hp hl hk hd (hlen hd)]
      rfl
    · rw [not_and_or, Bool.not_eq_true, Nat.not_le] at hlegal
      rw [transferCommand_refused hp hl hlegal, transferCommand_refused (s := s.withSignals ms n) hp hl hlegal]
      rfl
  · rw [transferCommand_notConnected hp hl, transferCommand_notConnected (s := s.withSignals ms n) hp hl]
    rfl

theorem moveIdle_withSignals (c : Option HostCommand) {s : State} (hp : s.phase = .idle) :
    moveIdle c (s.withSignals ms n) = outcomeWithSignals ms n (moveIdle c s) := by
  match c with
  | none => rfl
  | some .openLink =>
    change execOpen (s.withSignals ms n) = outcomeWithSignals ms n (execOpen s)
    by_cases hl : s.link = .unopened
    · rw [execOpen_unopened hp hl, execOpen_unopened (s := s.withSignals ms n) hp hl]; rfl
    · rw [execOpen_refused hp hl, execOpen_refused (s := s.withSignals ms n) hp hl]; rfl
  | some .closeLink =>
    change execClose (s.withSignals ms n) = outcomeWithSignals ms n (execClose s)
    by_cases hl : s.link = .opened
    · rw [execClose_opened hp hl, execClose_opened (s := s.withSignals ms n) hp hl]; rfl
    · rw [execClose_notConnected hp hl, execClose_notConnected (s := s.withSignals ms n) hp hl]; rfl
  | some (.transfer kind obj dlen data) =>
    rw [moveIdle, moveIdle, exec_decodedTransfer, exec_decodedTransfer]
    exact transferCommand_withSignals ms n hp fun hd => (length_presentedData data hd).trans_le hd

theorem moveGap_withSignals (s : State) : moveGap (s.withSignals ms n) = outcomeWithSignals ms n (moveGap s) := by
  have helapsed : gapElapsed (s.withSignals ms n) = gapElapsed s := rfl
  cases h : gapElapsed s <;> simp only [moveGap, helapsed, h] <;> rfl

theorem handOver_withSignals (b : Byte) (s : State) :
    handOver b (s.withSignals ms n) = (handOver b s).withSignals ms n := by
  by_cases h : s.txIdx + 1 = s.txLen
  · rw [handOver_last h, handOver_last (s := s.withSignals ms n) h]; rfl
  · rw [handOver_notLast h, handOver_notLast (s := s.withSignals ms n) h]; rfl

theorem moveTx_withSignals (ready fail : Bool) (s : State) :
    moveTx ready fail (s.withSignals ms n) = outcomeWithSignals ms n (moveTx ready fail s) := by
  match fail, ready with
  | true, _ => rfl
  | false, false => rfl
  | false, true =>
    change withRead (readByte .tx s.txIdx s) (fun b => .next (handOver b (s.withSignals ms n))) =
      outcomeWithSignals ms n (withRead (readByte .tx s.txIdx s) fun b => .next (handOver b s))
    simp only [handOver_withSignals]
    cases readByte .tx s.txIdx s <;> rfl

theorem moveRx_withSignals (s : State) : moveRx (s.withSignals ms n) = outcomeWithSignals ms n (moveRx s) := by
  rw [moveRx_eq, moveRx_eq]
  rfl

theorem moveCheck_withSignals {s : State} (hp : s.phase = .check) :
    moveCheck (s.withSignals ms n) = outcomeWithSignals ms n (moveCheck s) := by
  have hresponse : response (s.withSignals ms n) = response s := response_congr rfl rfl
  cases hr : response s with
  | error f => simp only [moveCheck, hresponse, hr, withRead, outcomeWithSignals]
  | ok r =>
    rw [moveCheck_eq hp hr, moveCheck_eq (s := s.withSignals ms n) hp (hresponse.trans hr)]
    by_cases he : r = []
    · rw [if_pos he, if_pos he]; rfl
    · rw [if_neg he, if_neg he, setClass_eq, setClass_eq _ (verifyResponse r s), verifyResponse_eq, verifyResponse_eq]
      cases classify r <;> rfl

/-- What a moment does to the block does not depend on the signals placed after it. -/
theorem runMoment_withSignals (m : Moment) (s : State) :
    runMoment m (s.withSignals ms n) = outcomeWithSignals ms n (runMoment m s) := by
  cases hreset : m.reset with
  | true => simp only [runMoment, hreset]; rfl
  | false =>
    simp only [runMoment, hreset, Bool.false_eq_true, if_false, observe_withSignals]
    generalize observe m s = o
    have hphase : (o.withSignals ms n).phase = o.phase := rfl
    cases hp : o.phase <;> simp only [move, hphase, hp]
    case idle => exact moveIdle_withSignals ms n m.command hp
    case gap => exact moveGap_withSignals ms n o
    case tx => exact moveTx_withSignals ms n m.txReady m.txFail o
    case rx => exact moveRx_withSignals ms n o
    case check => exact moveCheck_withSignals ms n hp

end

/-- Settles O59: the signals around the block pass through a moment unread. -/
theorem signalsAreAParameter : Obligations.SignalsAreAParameter := by
  unfold Obligations.SignalsAreAParameter
  refine ⟨fun _ => rfl, fun m rest s hs => by simp only [nextMoment, hs], fun m s => ?_⟩
  have h := runMoment_withSignals s.moments s.momentCount m s.toBlock.alone
  change runMoment m s = _ at h
  rw [h, blockStep]
  cases runMoment m s.toBlock.alone <;> rfl

/-! ### Phase GAP -/

/-- A moment in phase GAP moves `gap_timer` only, before the framer looks. -/
theorem observe_dropMoment_closed {s : State} (m : Moment) (htx : s.phase ≠ .tx) (hrx : s.phase ≠ .rx) :
    observe m (dropMoment s) =
      { dropMoment s with gapTimer := if m.tick then min (s.gapTimer + 1) Config.gapTicks else s.gapTimer } :=
  observe_closed (s := dropMoment s) htx hrx

/-- Settles O37: the gap is looked at after the tick, and leaving it writes `tx_idx` and the phase. -/
theorem gapIsWaitedOut : Obligations.GapIsWaitedOut := by
  unfold Obligations.GapIsWaitedOut
  intro s hp hreset
  rw [step_gap hreset hp, observe_dropMoment_closed _ (by simp [hp]) (by simp [hp])]
  generalize hgap : (if (nextMoment s).tick = true then min (s.gapTimer + 1) Config.gapTicks else s.gapTimer) = gap
  have helapsed := gapElapsed_iff { dropMoment s with gapTimer := gap }
  cases he : gapElapsed { dropMoment s with gapTimer := gap } with
  | true =>
    refine ⟨_, if_pos he, rfl, rfl, rfl, rfl, fun _ => ⟨rfl, rfl⟩, fun ⟨harmed, hlt⟩ => ?_⟩
    obtain hunarmed | hle := helapsed.1 he
    · cases harmed.symm.trans hunarmed
    · exact absurd hle (Nat.not_le.2 hlt)
  | false =>
    refine ⟨_, if_neg (Bool.eq_false_iff.1 he), rfl, rfl, rfl, rfl, fun h => ?_, fun _ => ⟨hp, rfl⟩⟩
    rw [helapsed.2 h] at he
    cases he

/-! ### Phase TX -/

/-- A moment in phase TX stores its byte and moves `gap_timer`. -/
theorem observe_of_tx {m : Moment} {s : State} (hp : s.phase = .tx) :
    observe m s =
      { s with
        rx := (receive m.received s).rx, rxLen := (receive m.received s).rxLen
        gapTimer := if m.tick then min (s.gapTimer + 1) Config.gapTicks else s.gapTimer } := by
  rw [observe_eq, observe_rx, observe_rxLen, observe_gapTimer, observe_rxTimer]
  simp [hp]

/-- Settles O39: the failed write discards what the moment stored and counted. -/
theorem failedWriteIsIoError : Obligations.FailedWriteIsIoError := by
  unfold Obligations.FailedWriteIsIoError
  intro s hp hreset hfail
  rw [step_tx hreset hp, hfail, observe_of_tx (s := dropMoment s) hp]
  rfl

/-- What a received byte does in phase TX (R143). -/
theorem receiveByte_tx {b : Byte} {s : State} (hp : s.phase = .tx) :
    (receiveByte b s).rxLen = (if s.rxLen < 100 then s.rxLen + 1 else s.rxLen) ∧
      (receiveByte b s).rx = if s.rxLen < 100 then s.rx.write s.rxLen b else s.rx := by
  by_cases hlen : s.rxLen < 100
  · rw [receiveByte_open ((windowOpen_iff s).2 ⟨.inl hp, hlen⟩), if_pos hlen, if_pos hlen]
    exact ⟨rfl, rfl⟩
  · have hclosed : windowOpen s = false := by
      rw [← Bool.not_eq_true, windowOpen_iff]
      exact fun h => hlen h.2
    rw [receiveByte_closed hclosed, if_neg hlen, if_neg hlen]
    exact ⟨rfl, rfl⟩

theorem moveTx_ready {s : State} {b : Byte} (hb : readByte .tx s.txIdx s = .ok b) :
    moveTx true false s = .next (handOver b s) := by
  simp [moveTx, hb, withRead]

/-- Settles O38: the byte of the moment is stored, then the byte offered is handed over, the last one or not. -/
theorem readyHandsOverOneByte : Obligations.ReadyHandsOverOneByte := by
  unfold Obligations.ReadyHandsOverOneByte
  intro s hp hreset hfail
  have hobserve := observe_of_tx (m := nextMoment s) (s := dropMoment s) hp
  refine ⟨_, _, rfl, rfl, fun b hb => ?stored, fun hnone => ?noByte, fun b hready hread => ?handsOver,
    fun hready => ?waits⟩
  case stored => rw [hb]; exact receiveByte_tx (s := dropMoment s) hp
  case noByte => rw [hnone]; rfl
  case handsOver =>
    have hread' : readByte .tx s.txIdx (observe (nextMoment s) (dropMoment s)) = .ok b := by
      rw [readByte_congr (sp := .tx) (s' := s) (by simp), hread]
    rw [step_tx hreset hp, hready, hfail, moveTx_ready (by simpa using hread'), hobserve]
    exact ⟨fun hlast => congrArg _ (handOver_last hlast), fun hmore => congrArg _ (handOver_notLast hmore)⟩
  case waits =>
    rw [step_tx hreset hp, hready, hfail, hobserve]
    rfl

/-! ### Phase IDLE without a command -/

/-- Settles O46: nothing moves, and a received byte is dropped. -/
theorem resultsStayUntilTheNextCommand : Obligations.ResultsStayUntilTheNextCommand := by
  unfold Obligations.ResultsStayUntilTheNextCommand
  intro s hp hreset hnone
  rw [step_idle hreset hp, hnone, observe_dropMoment_closed _ (by simp [hp]) (by simp [hp])]
  rfl

/-! ### The timers -/

/-- `T_GAP` in ticks is the least number of ticks that last 50 ms (R32). -/
theorem gapTicks_le_iff (n : Nat) :
    Config.gapTicks ≤ n ↔ Config.gapMs * (Config.tickParts + 1) ≤ n * (Config.tickUnits + 1) := by
  obtain ⟨hreached, hbefore⟩ := gapTicks_spec
  refine ⟨fun h => hreached.trans (Nat.mul_le_mul_right _ h), fun h => ?_⟩
  have := lt_of_mul_lt_mul_right (hbefore.trans_le h) (Nat.zero_le _)
  omega

/-- Settles O43: the limits in time, and one tick of each timer. -/
theorem ticksAdvanceTheTimers : Obligations.TicksAdvanceTheTimers := by
  unfold Obligations.TicksAdvanceTheTimers
  refine ⟨gapMs_lt_timeoutTicks, gapTicks_le_timeoutTicks, fun hexact => ?divides, gapTicks_pos, gapTicks_le_iff,
    fun s => ⟨_, _, rfl, fun hlt => ?counts, fun hend => ?saturates, fun hp => ?otherPhase, fun hp hlen hlt => ?reads⟩⟩
  case divides =>
    exact lt_of_mul_lt_mul_right (hexact.trans_lt gapMs_lt_timeoutTicks) (Nat.zero_le _)
  case counts => omega
  case saturates => omega
  case otherPhase => simp [readTimerRuns, hp]
  case reads =>
    have hlen' : s.rxLen ≠ Config.rxBufSize := hlen
    simp [readTimerRuns, hp, hlen', hlt.ne]

/-! ### The wire -/

theorem LeftByCommand.wireOut {c : HostCommand} {s t : State} (h : LeftByCommand c s t) : t.wireOut = s.wireOut := by
  cases h <;> rfl

theorem handOver_wireOut (b : Byte) (s : State) : (handOver b s).wireOut = s.wireOut ++ [b] := by
  by_cases h : s.txIdx + 1 = s.txLen
  · rw [handOver_last h]
  · rw [handOver_notLast h]

theorem completeCheck_wireOut (c : ResponseClass) (r : List Byte) (s : State) :
    (completeCommand (setClass c (verifyResponse r s))).wireOut = s.wireOut := by
  rw [setClass_eq, verifyResponse_eq]
  rfl

/-- A move leaves the wire alone, or it hands over the byte offered (R30). -/
theorem move_wireOut_cases {m : Moment} {s t : State} (h : move m s = .next t) :
    t.wireOut = s.wireOut ∨
    (s.phase = .tx ∧ m.txReady = true ∧ m.txFail = false ∧
      ∃ b, readByte .tx s.txIdx s = .ok b ∧ t.wireOut = s.wireOut ++ [b]) := by
  cases hp : s.phase <;> simp only [move, hp] at h
  case idle =>
    obtain ⟨u, hu, ⟨-, rfl⟩ | ⟨k, -, hleft⟩⟩ := moveIdle_cases m.command hp
    · cases hu.symm.trans h; exact .inl rfl
    · cases hu.symm.trans h; exact .inl hleft.wireOut
  case gap =>
    obtain ⟨-, rfl⟩ | ⟨-, rfl⟩ := moveGap_cases h
    · exact .inl rfl
    · exact .inl rfl
  case tx =>
    obtain ⟨-, rfl⟩ | ⟨hfail, hready, b, hread, rfl⟩ | ⟨-, -, rfl⟩ := moveTx_cases h
    · exact .inl rfl
    · exact .inr ⟨rfl, hready, hfail, b, hread, handOver_wireOut b s⟩
    · exact .inl rfl
  case rx => rw [moveRx_eq] at h; cases h; exact .inl rfl
  case check =>
    obtain ⟨-, rfl⟩ | ⟨r, -, -, rfl⟩ := moveCheck_cases hp h
    · exact .inl rfl
    · exact .inl (completeCheck_wireOut _ r s)

/-- Settles O54: what comes before the move leaves phase, TX and wire alone, and a reset leaves the wire. -/
theorem wireGrowsOnlyByHandOver : Obligations.WireGrowsOnlyByHandOver := by
  unfold Obligations.WireGrowsOnlyByHandOver
  intro s t h hne
  cases hreset : (nextMoment s).reset with
  | true => rw [step_reset hreset] at h; cases h; exact absurd rfl hne
  | false =>
    rw [step_move hreset] at h
    have hcases := move_wireOut_cases h
    simp only [observe_wireOut, observe_phase, observe_txIdx, dropMoment_wireOut, dropMoment_phase,
      dropMoment_txIdx] at hcases
    obtain e | ⟨hp, hready, hfail, b, hread, hwire⟩ := hcases
    · exact absurd e hne
    · rw [readByte_congr (sp := .tx) (s' := s) (by simp)] at hread
      exact ⟨hp, rfl, hready, hfail, b, hread, hwire⟩

/-- Settles O60: a byte that reached the wire is the one that could be read at `tx_idx`. -/
theorem offeredByteIsTheNextOfTX : Obligations.OfferedByteIsTheNextOfTX := by
  unfold Obligations.OfferedByteIsTheNextOfTX
  refine fun s => ⟨fun hp => ?inTx, fun hp => ?outside⟩
  case inTx =>
    have hvalid : txValid s = true := by simp [txValid, hp]
    have hdata : txData s = readByte .tx s.txIdx s := if_pos hvalid
    refine ⟨hvalid, hdata, fun b t hreset h hwire => ?_⟩
    have hne : t.wireOut ≠ s.wireOut := by simp [hwire]
    obtain ⟨-, -, -, -, b', hread, hwire'⟩ := wireGrowsOnlyByHandOver s t h hne
    have hb : b = b' := by simpa using hwire.symm.trans hwire'
    rw [hdata, hread, hb]
  case outside =>
    have hvalid : txValid s = false := by simp [txValid, hp]
    exact ⟨hvalid, by simp [txData, hvalid]⟩

/-! ### The request -/

/-- The request descriptor and TX are the same in two states. -/
def SameRequest (s t : State) : Prop :=
  t.reqKind = s.reqKind ∧ t.reqNode = s.reqNode ∧ t.reqObj = s.reqObj ∧ t.reqDlen = s.reqDlen ∧ t.req = s.req ∧
    t.tx = s.tx ∧ t.txLen = s.txLen

theorem SameRequest.refl (s : State) : SameRequest s s := ⟨rfl, rfl, rfl, rfl, rfl, rfl, rfl⟩

theorem LeftByCommand.sameRequest {c : HostCommand} {s t : State} (h : LeftByCommand c s t)
    (hno : ¬ startsTransfer c s) : SameRequest s t := by
  cases h with
  | opens | closes | notConnected | refused => exact ⟨rfl, rfl, rfl, rfl, rfl, rfl, rfl⟩
  | starts kind obj data hstarts => exact absurd hstarts hno

theorem handOver_sameRequest (b : Byte) (s : State) : SameRequest s (handOver b s) := by
  by_cases h : s.txIdx + 1 = s.txLen
  · rw [handOver_last h]; exact .refl s
  · rw [handOver_notLast h]; exact .refl s

theorem completeCheck_sameRequest (c : ResponseClass) (r : List Byte) (s : State) :
    SameRequest s (completeCommand (setClass c (verifyResponse r s))) := by
  rw [setClass_eq, verifyResponse_eq]
  exact .refl s

/-- Only a command that starts a transfer writes the request and TX. -/
theorem move_sameRequest {m : Moment} {s t : State} (h : move m s = .next t)
    (hno : ∀ c, s.phase = .idle → m.command = some c → ¬ startsTransfer c s) : SameRequest s t := by
  cases hp : s.phase <;> simp only [move, hp] at h
  case idle =>
    obtain ⟨u, hu, ⟨-, rfl⟩ | ⟨k, hk, hleft⟩⟩ := moveIdle_cases m.command hp
    · cases hu.symm.trans h; exact .refl _
    · cases hu.symm.trans h; exact hleft.sameRequest (hno k hp hk)
  case gap => obtain ⟨-, rfl⟩ | ⟨-, rfl⟩ := moveGap_cases h <;> exact .refl _
  case tx =>
    obtain ⟨-, rfl⟩ | ⟨-, -, b, -, rfl⟩ | ⟨-, -, rfl⟩ := moveTx_cases h
    · exact .refl s
    · exact handOver_sameRequest b s
    · exact .refl _
  case rx => rw [moveRx_eq] at h; cases h; exact .refl s
  case check =>
    obtain ⟨-, rfl⟩ | ⟨r, -, -, rfl⟩ := moveCheck_cases hp h
    · exact .refl s
    · exact completeCheck_sameRequest _ r s

/-- Settles O55: the move of the step, and before it nothing writes the request. -/
theorem requestIsFixedInFlight : Obligations.RequestIsFixedInFlight := by
  unfold Obligations.RequestIsFixedInFlight
  intro s t h hreset hno
  rw [step_move hreset] at h
  have hsame := move_sameRequest h fun c hp hc hstarts => by
    obtain ⟨hl, kind, obj, dlen, data, rfl, hlegal⟩ := hstarts
    exact hno ⟨by simpa using hp, by simpa using hl, kind, obj, dlen, data, hc, hlegal⟩
  simpa [SameRequest] using hsame

/-! ### Phase CHECK -/

/-- Where the invariant holds, CHECK with a response carries out both checks and completes (R146). -/
theorem step_checked {s : State} (h : Inv s) (hp : s.phase = .check) (hlen : 0 < s.rxLen)
    (hreset : (nextMoment s).reset = false) :
    step s = .next (completeCommand (setClass (classify (bytesOf s.rx))
      (verifyResponse (bytesOf s.rx) (observe (nextMoment s) (dropMoment s))))) := by
  have hne : bytesOf s.rx ≠ [] := List.length_pos_iff.1 (h.buffers.rx.length.symm ▸ hlen)
  have hr := (inv_observe h (nextMoment s)).buffers.response
  rw [(observe_rx_closed (windowOpen_false (by simp [hp]) (by simp [hp]))).1] at hr
  rw [step_check hreset hp, moveCheck_eq (by simpa using hp) hr]
  exact if_neg hne

/-- The class flags in terms of bytes 2 and 3 (R112). -/
theorem setClass_classify_flags (r : List Byte) (s : State) :
    ((setClass (classify r) s).fDevError = true ↔ ∃ a b c tail, r = a :: b :: 0xFF :: c :: tail ∧ c ≠ 0) ∧
    ((setClass (classify r) s).fAck = true ↔ ∃ a b tail, r = a :: b :: 0xFF :: 0x00 :: tail) ∧
    ((setClass (classify r) s).fIsStatus = true ↔ ∃ a b c tail, r = a :: b :: 0xFF :: c :: tail) := by
  by_cases h : ∃ a b c tail, r = a :: b :: 0xFF :: c :: tail
  · obtain ⟨a, b, c, tail, rfl⟩ := h
    rw [classify_status]
    by_cases hc : c = 0
    · rw [if_pos hc]; simp [setClass, hc]
    · rw [if_neg hc]; simpa [setClass] using hc
  · simp only [not_exists] at h
    rw [classify_notStatus h]
    exact ⟨iff_of_false Bool.false_ne_true fun ⟨a, b, c, tail, e, _⟩ => h a b c tail e,
      iff_of_false Bool.false_ne_true fun ⟨a, b, tail, e⟩ => h a b 0 tail e,
      iff_of_false Bool.false_ne_true fun ⟨a, b, c, tail, e⟩ => h a b c tail e⟩

theorem completeCheck_fCsMismatch (c : ResponseClass) (r : List Byte) (s : State) :
    (completeCommand (setClass c (verifyResponse r s))).fCsMismatch = !checksumGood r := by
  rw [setClass_eq, verifyResponse_eq]
  rfl

/-- QUERY 0 is on the wire and `r` was read; the next moment is quiet. -/
def checking (r : List Byte) : State :=
  { startedTransfer 0x40 0 [] State.reset with
    link := .opened, txIdx := 5, phase := .check, gapArmed := true, wireOut := encodeTelegram 0x40 0 0 []
    rx := cellsFrom 0 r, rxLen := r.length, moments := [.quiet] }

theorem inv_checking {r : List Byte} (h : r.length ≤ 100) : Inv (checking r) :=
  inv_moved ⟨rfl, rfl, rfl, rfl, rfl⟩
    ⟨rfl, rfl, filledTo_cellsFrom r, Nat.zero_le _, .inr ⟨le_rfl, (by decide : 5 ≤ 21)⟩, (by decide : 5 ≤ 21), h⟩
    ⟨Nat.zero_le _, Nat.zero_le _⟩ ⟨nofun, nofun, fun _ => ⟨rfl, rfl, List.suffix_rfl⟩⟩

/-- Each pair of verdicts is that of some response. -/
theorem response_of_verdicts (mismatch devError : Bool) :
    ∃ r : List Byte, 0 < r.length ∧ r.length ≤ 100 ∧ (!checksumGood r) = mismatch ∧
      ∀ s, (setClass (classify r) s).fDevError = devError := by
  match mismatch, devError with
  | false, false => exact ⟨[0x80, 0x00, 0xFF, 0x00, 0x01, 0x7F], by decide, by decide, by decide, fun _ => rfl⟩
  | false, true => exact ⟨[0x80, 0x00, 0xFF, 0x05, 0x01, 0x84], by decide, by decide, by decide, fun _ => rfl⟩
  | true, false => exact ⟨[0x83], by decide, by decide, by decide, fun _ => rfl⟩
  | true, true => exact ⟨[0x80, 0x00, 0xFF, 0x05, 0x01, 0x85], by decide, by decide, by decide, fun _ => rfl⟩

/-- Settles O27: the step writes each verdict of the response, and four responses show all pairs. -/
theorem checksumAndDeviceErrorAreIndependent : Obligations.ChecksumAndDeviceErrorAreIndependent := by
  unfold Obligations.ChecksumAndDeviceErrorAreIndependent
  refine ⟨fun s h hp hlen hreset => ?writes, fun mismatch devError => ?pairs⟩
  case writes =>
    exact ⟨_, step_checked h hp hlen hreset, completeCheck_fCsMismatch _ _ _, setClass_classify_flags _ _⟩
  case pairs =>
    obtain ⟨r, hpos, hlen, hmismatch, hdevError⟩ := response_of_verdicts mismatch devError
    have h := inv_checking hlen
    have hstep := step_checked h rfl hpos rfl
    rw [show bytesOf (checking r).rx = r from bytesOf_cellsFrom 0 r] at hstep
    exact ⟨_, _, h, rfl, hpos, rfl, hstep, (completeCheck_fCsMismatch _ r _).trans hmismatch, hdevError _⟩

end Sys2Proof.Machine
end

section
/-!
PROOFS. A transfer from its parts: the telegram goes out (R140), the response comes in (R143, R144), the read times out
(R144), and the two checks end it (R145, R146); then all of it as one function (R149).
-/

namespace Sys2Proof.Machine

/-! ### Runs that go on -/

/-- `n` steps lead from `s` to `t`. -/
def RunsTo (n : Nat) (s t : State) : Prop := Host.Core.run core n s = .next t

theorem RunsTo.refl (s : State) : RunsTo 0 s s := rfl

theorem RunsTo.of_step {s t : State} (h : step s = .next t) : RunsTo 1 s t := run_next 0 h

theorem RunsTo.trans {m n : Nat} {s t u : State} (h : RunsTo m s t) (h' : RunsTo n t u) : RunsTo (m + n) s u :=
  (run_add m n h).trans h'

theorem RunsTo.cons {n : Nat} {s t u : State} (h : step s = .next t) (h' : RunsTo n t u) : RunsTo (n + 1) s u :=
  (run_next n h).trans h'

theorem RunsTo.inv {n : Nat} {s t : State} (h : RunsTo n s t) (hs : Inv s) : Inv t := by
  induction n generalizing s with
  | zero => cases h; exact hs
  | succ n ih =>
    obtain ⟨u, hu⟩ := step_next hs
    exact ih ((run_next n hu).symm.trans h) (inv_step hs hu)

theorem nextMoment_eq {s : State} {m : Moment} {rest : List Moment} (h : s.moments = m :: rest) : nextMoment s = m := by
  simp only [nextMoment, h]

/-! ### The telegram goes out -/

/-- A transmitter that is ready takes the byte offered. -/
theorem step_ready {s : State} {rest : List Moment} {b : Byte} (hp : s.phase = .tx)
    (hm : s.moments = readyMoment :: rest) (hb : readByte .tx s.txIdx s = .ok b) :
    step s = .next (handOver b (dropMoment s)) := by
  have hnext := nextMoment_eq hm
  rw [step_tx (by rw [hnext]; rfl) hp, hnext, observe_still rfl rfl]
  exact moveTx_ready hb

/-- The rest of the telegram goes out byte by byte, and the read begins (R140). -/
theorem runsTo_sent {k : Nat} {s : State} {rest : List Moment} (h : Inv s) (hp : s.phase = .tx)
    (hk : s.txIdx + k = s.txLen) (hm : s.moments = List.replicate k readyMoment ++ rest) :
    RunsTo k s { s with
      moments := rest, momentCount := s.momentCount + k, wireOut := s.wireOut ++ (bytesOf s.tx).drop s.txIdx
      txIdx := s.txLen, gapTimer := 0, gapArmed := true, rxTimer := 0, phase := .rx } := by
  induction k generalizing s with
  | zero => exact absurd (h.wire.tx hp).1 (by omega)
  | succ k ih =>
    obtain ⟨b, hget, hb⟩ := h.buffers.readTx (h.wire.tx hp).1
    have hstep := step_ready hp hm hb
    have hdrop : (bytesOf s.tx).drop s.txIdx = b :: (bytesOf s.tx).drop (s.txIdx + 1) := by
      obtain ⟨hlt, rfl⟩ := List.getElem?_eq_some_iff.1 hget
      exact List.drop_eq_getElem_cons hlt
    have hrest : (dropMoment s).moments = List.replicate k readyMoment ++ rest := by
      change s.moments.tail = _
      rw [hm]; rfl
    by_cases hlast : s.txIdx + 1 = s.txLen
    · obtain rfl : k = 0 := by omega
      have hnone : (bytesOf s.tx).drop (s.txIdx + 1) = [] := List.drop_eq_nil_of_le (by rw [h.buffers.tx.length, hlast])
      rw [handOver_last (s := dropMoment s) hlast, dropMoment_txIdx, hlast] at hstep
      have hrest' : (dropMoment s).moments = rest := hrest
      rw [hdrop, hnone, ← hrest']
      exact .of_step hstep
    · rw [handOver_notLast (s := dropMoment s) hlast] at hstep
      have hrun := ih (inv_step h hstep) hp (by change s.txIdx + 1 + k = s.txLen; omega) hrest
      rw [hdrop, List.append_cons, show s.momentCount + (k + 1) = s.momentCount + 1 + k by omega]
      exact .cons hstep hrun

/-- Settles O56: from the first byte on. -/
theorem wholeTelegramGoesOut : Obligations.WholeTelegramGoesOut := by
  unfold Obligations.WholeTelegramGoesOut
  intro s rest h hp hidx hm
  have hf := h.inFlight (by simp [hp])
  refine ⟨_, runsTo_sent h hp (by omega) hm, rfl, rfl, ?_, rfl, rfl, rfl⟩
  rw [hidx, List.drop_zero, hf.telegram, hf.node]
  rfl

/-! ### The response comes in -/

/-- Phase RX by the condition that ends the read. -/
theorem moveRx_of_iff {s : State} {p : Prop} [Decidable p] (h : readEnded s = true ↔ p) (hp : s.phase = .rx) :
    moveRx s = .next { s with phase := if p then .check else .rx } := by
  rw [moveRx_eq, hp, if_congr h rfl rfl]

/-- A byte that arrives in phase RX is stored, and the hundredth ends the read (R143, R144). -/
theorem step_byte {s : State} {b : Byte} {rest : List Moment} (h : Inv s) (hp : s.phase = .rx)
    (htimer : s.rxTimer ≠ Config.timeoutTicks) (hlen : s.rxLen < 100) (hm : s.moments = byteMoment b :: rest) :
    step s = .next { s with
      moments := rest, momentCount := s.momentCount + 1, rx := cellsFrom 0 (bytesOf s.rx ++ [b]), rxLen := s.rxLen + 1
      phase := if s.rxLen + 1 = 100 then .check else .rx } := by
  have hnext := nextMoment_eq hm
  have hopen : windowOpen (dropMoment s) = true := (windowOpen_iff s).2 ⟨.inr hp, hlen⟩
  have hobserve : observe (byteMoment b) (dropMoment s) = receiveByte b (dropMoment s) := rfl
  have hended := (readEnded_iff { dropMoment s with rx := cellsFrom 0 (bytesOf s.rx ++ [b]), rxLen := s.rxLen + 1 }).trans
    (or_iff_left htimer)
  obtain rfl : rest = s.moments.tail := by rw [hm]; rfl
  rw [step_rx (by rw [hnext]; rfl) hp, hnext, hobserve, receiveByte_open hopen, dropMoment_rx, dropMoment_rxLen,
    h.buffers.rx.push]
  exact moveRx_of_iff hended hp

/-- Bytes that arrive in phase RX are stored in order (R143). -/
theorem runsTo_received {w : List Byte} {s : State} {rest : List Moment} (h : Inv s) (hp : s.phase = .rx)
    (htimer : s.rxTimer ≠ Config.timeoutTicks) (hroom : s.rxLen < 100) (hlen : s.rxLen + w.length ≤ 100)
    (hm : s.moments = w.map byteMoment ++ rest) :
    RunsTo w.length s { s with
      moments := rest, momentCount := s.momentCount + w.length, rx := cellsFrom 0 (bytesOf s.rx ++ w)
      rxLen := s.rxLen + w.length, phase := if s.rxLen + w.length = 100 then .check else .rx } := by
  induction w generalizing s with
  | nil =>
    have hm' : s.moments = rest := hm
    rw [List.append_nil, ← h.buffers.rx.cells, ← hm', List.length_nil, Nat.add_zero, Nat.add_zero, if_neg hroom.ne,
      ← hp]
    exact .refl s
  | cons b w ih =>
    have hstep := step_byte h hp htimer hroom hm
    have hlength (n : Nat) : n + (b :: w).length = n + 1 + w.length := by rw [List.length_cons]; omega
    rw [hlength] at hlen
    rw [hlength, hlength]
    cases w with
    | nil => exact .of_step hstep
    | cons c w =>
      have hmore : s.rxLen + 1 < 100 := by rw [List.length_cons] at hlen; omega
      rw [if_neg hmore.ne] at hstep
      have hrun := ih (inv_step h hstep) rfl htimer hmore hlen rfl
      rw [bytesOf_cellsFrom, List.append_assoc] at hrun
      exact .cons hstep hrun

/-- Settles O57: the run of the bytes, whose last state meets the invariant and so gives the response. -/
theorem arrivingBytesAreKeptInOrder : Obligations.ArrivingBytesAreKeptInOrder := by
  unfold Obligations.ArrivingBytesAreKeptInOrder
  intro s w rest h hp htimer hw hlen hm
  have hpos := List.length_pos_iff.2 hw
  have hrun := runsTo_received h hp htimer (by omega) hlen hm
  have hr := (hrun.inv h).buffers.response
  rw [bytesOf_cellsFrom] at hr
  exact ⟨_, hrun, rfl, hr, rfl, rfl⟩

/-! ### The read times out -/

/-- A tick in phase RX counts, and ends the read when it makes `T_TIMEOUT` (R144). -/
theorem step_tick {s : State} {rest : List Moment} (hp : s.phase = .rx) (htimer : s.rxTimer ≠ Config.timeoutTicks)
    (hlen : s.rxLen ≠ 100) (hm : s.moments = tickMoment :: rest) :
    step s = .next { s with
      moments := rest, momentCount := s.momentCount + 1, rxTimer := s.rxTimer + 1
      gapTimer := min (s.gapTimer + 1) Config.gapTicks
      phase := if s.rxTimer + 1 = Config.timeoutTicks then .check else .rx } := by
  have hnext := nextMoment_eq hm
  have hruns : readTimerRuns (dropMoment s) = true := by
    have hlen' : s.rxLen ≠ Config.rxBufSize := hlen
    simp [readTimerRuns, hp, htimer, hlen']
  have hobserve : observe tickMoment (dropMoment s) = tickTimers (dropMoment s) := rfl
  have hended := (readEnded_iff { dropMoment s with
    gapTimer := min (s.gapTimer + 1) Config.gapTicks, rxTimer := s.rxTimer + 1 }).trans (or_iff_right hlen)
  obtain rfl : rest = s.moments.tail := by rw [hm]; rfl
  rw [step_rx (by rw [hnext]; rfl) hp, hnext, hobserve, tickTimers, hruns, if_pos rfl]
  exact moveRx_of_iff hended hp

/-- Ticks alone end the read (R144). -/
theorem runsTo_timedOut {k : Nat} {s : State} {rest : List Moment} (hp : s.phase = .rx) (hlen : s.rxLen ≠ 100)
    (hpos : 0 < k) (hk : s.rxTimer + k = Config.timeoutTicks) (hm : s.moments = List.replicate k tickMoment ++ rest) :
    RunsTo k s { s with
      moments := rest, momentCount := s.momentCount + k, rxTimer := Config.timeoutTicks
      gapTimer := min (s.gapTimer + k) Config.gapTicks, phase := .check } := by
  induction k generalizing s with
  | zero => omega
  | succ k ih =>
    have hstep := step_tick hp (by omega) hlen hm
    obtain rfl | hmore := Nat.eq_zero_or_pos k
    · rw [if_pos (by omega)] at hstep
      rw [← hk]
      exact .of_step hstep
    · rw [if_neg (by omega)] at hstep
      have hgap : min (s.gapTimer + (k + 1)) Config.gapTicks =
          min (min (s.gapTimer + 1) Config.gapTicks + k) Config.gapTicks := by omega
      rw [hgap, show s.momentCount + (k + 1) = s.momentCount + 1 + k by omega]
      exact .cons hstep (ih rfl hlen hmore (by change s.rxTimer + 1 + k = _; omega) rfl)

/-! ### The checks -/

/-- The outcome of a transfer whose read gave `w` (R16, R145, R146). -/
def transferOutcome (w : List Byte) : CommandOutcome :=
  if w = [] then .ioError
  else if checksumGood w = false then .checksumMismatch
  else match classify w with
    | .deviceError c => .deviceError c
    | .ack => .ok
    | .notStatus => .ok

/-- Both checks on a clear record give the outcome of a response (R195). -/
theorem outcome_completeCheck {r : List Byte} {s : State} (hn : NoRecord s) (hr : r ≠ []) :
    outcome (completeCommand (setClass (classify r) (verifyResponse r s))) = some (transferOutcome r) := by
  obtain ⟨-, hnotConnected, hrefused, hioError, -⟩ := (noRecord_iff s).1 hn
  rw [transferOutcome, if_neg hr, verifyResponse_eq]
  cases hgood : checksumGood r <;> cases classify r <;>
    simp [outcome, completeCommand, setClass, hnotConnected, hrefused, hioError]

theorem response_completeCommand (s : State) : response (completeCommand s) = response s := response_congr rfl rfl

/-- A quiet moment in phase CHECK ends the transfer with the outcome of what was read. -/
theorem step_ends {s : State} {rest : List Moment} (h : Inv s) (hp : s.phase = .check) (hm : s.moments = .quiet :: rest) :
    ∃ t, step s = .next t ∧ t.phase = .idle ∧ t.done = true ∧ t.link = .opened ∧ t.moments = rest ∧
      t.wireOut = s.wireOut ∧ response t = .ok (bytesOf s.rx) ∧ outcome t = some (transferOutcome (bytesOf s.rx)) := by
  have hnext := nextMoment_eq hm
  have hf := h.inFlight (by simp [hp])
  have hn : NoRecord (dropMoment s) := (noRecord_iff _).2 ((noRecord_iff s).1 hf.noRecord)
  have hrest : (dropMoment s).moments = rest := by
    change s.moments.tail = rest
    rw [hm]; rfl
  have hresponse : response (dropMoment s) = .ok (bytesOf s.rx) := (inv_dropMoment h).buffers.response
  have hstep : step s = moveCheck (dropMoment s) := by
    rw [step_check (by rw [hnext]; rfl) hp, hnext, observe_still rfl rfl]
  rw [hstep, moveCheck_eq (s := dropMoment s) hp hresponse]
  by_cases hempty : bytesOf s.rx = []
  · obtain ⟨-, hnotConnected, hrefused, -⟩ := (noRecord_iff s).1 hf.noRecord
    refine ⟨_, if_pos hempty, rfl, rfl, hf.linkOpen, hrest, rfl, ?_, ?_⟩
    · rw [← hresponse]; exact response_congr rfl rfl
    · rw [transferOutcome, if_pos hempty]
      simp [outcome, raiseError, completeCommand, hnotConnected, hrefused]
  · refine ⟨_, if_neg hempty, rfl, rfl, ?_, ?_, completeCheck_wireOut _ _ _, ?_, outcome_completeCheck hn hempty⟩
    · simpa using hf.linkOpen
    · rw [setClass_eq, verifyResponse_eq]; exact hrest
    · rw [response_completeCommand, response_setClass, response_verifyResponse, hresponse]

/-! ### The start -/

/-- A legal TRANSFER on an open link goes to GAP in one step (R136). -/
theorem step_starts {s : State} {rest : List Moment} {kind obj : Byte} {dlen : BitVec 5} {data : Vector Byte 16}
    (hp : s.phase = .idle) (hl : s.link = .opened) (hk : legalKind kind = true) (hd : dlen.toNat ≤ 16)
    (hm : s.moments = commandMoment (.transfer kind obj dlen data) :: rest) :
    step s = .next (startedTransfer kind obj (data.toList.take dlen.toNat) (acceptCommand (dropMoment s))) := by
  have hnext := nextMoment_eq hm
  rw [step_idle (by rw [hnext]; rfl) hp, hnext, observe_still rfl rfl]
  exact (exec_decodedTransfer kind obj dlen data _).trans
    (transferCommand_accepted hp hl hk hd ((length_presentedData data hd).trans_le hd))

/-- A quiet moment in phase GAP with the gap elapsed goes to TX (R138). -/
theorem step_gapElapsed {s : State} {rest : List Moment} (hp : s.phase = .gap) (hm : s.moments = .quiet :: rest)
    (he : gapElapsed s = true) : step s = .next { dropMoment s with txIdx := 0, phase := .tx } := by
  have hnext := nextMoment_eq hm
  rw [step_gap (by rw [hnext]; rfl) hp, hnext, observe_still rfl rfl]
  exact if_pos he

/-- From the command to the read in `7 + req_dlen` steps, on a transmitter that takes every byte. -/
theorem runsTo_reading {s : State} {rest : List Moment} {kind obj : Byte} {dlen : BitVec 5} {data : Vector Byte 16}
    (h : Inv s) (hp : s.phase = .idle) (hl : s.link = .opened) (hgap : s.gapArmed = false ∨ s.gapTimer = Config.gapTicks)
    (hk : legalKind kind = true) (hd : dlen.toNat ≤ 16)
    (hm : s.moments = commandMoment (.transfer kind obj dlen data) :: .quiet ::
      (List.replicate (5 + dlen.toNat) readyMoment ++ rest)) :
    ∃ t, RunsTo (5 + dlen.toNat + 1 + 1) s t ∧ t.phase = .rx ∧ t.rx = [] ∧ t.rxLen = 0 ∧ t.rxTimer = 0 ∧
      t.moments = rest ∧ t.wireOut = s.wireOut ++ encodeTelegram kind 0 obj (data.toList.take dlen.toNat) := by
  have hlen := length_presentedData data hd
  have hstart := step_starts hp hl hk hd hm
  generalize hu : startedTransfer kind obj (data.toList.take dlen.toNat) (acceptCommand (dropMoment s)) = u at hstart
  have hum : u.moments = .quiet :: (List.replicate (5 + dlen.toNat) readyMoment ++ rest) := by
    rw [← hu]; change s.moments.tail = _; rw [hm]; rfl
  have helapsed : gapElapsed u = true := by
    rw [← hu]; exact (gapElapsed_iff _).2 (hgap.imp_right fun e => e.ge)
  have hleave := step_gapElapsed (by rw [← hu]; rfl) hum helapsed
  have hinv := inv_step (inv_step h hstart) hleave
  have hutx : u.txLen = 5 + dlen.toNat := by rw [← hu]; exact congrArg (5 + ·) hlen
  have hsent := runsTo_sent (k := 5 + dlen.toNat) (rest := rest) hinv rfl (by change 0 + _ = u.txLen; omega)
    (by change u.moments.tail = _; rw [hum]; rfl)
  refine ⟨_, .cons hstart (.cons hleave hsent), rfl, by rw [← hu]; rfl, by rw [← hu]; rfl, rfl, rfl, ?_⟩
  subst hu
  exact congrArg (s.wireOut ++ ·) (bytesOf_cellsFrom 0 _)

/-! ### The whole transfer -/

/-- Settles O58: the parts one after the other. -/
theorem transferAsOneFunction : Obligations.TransferAsOneFunction := by
  unfold Obligations.TransferAsOneFunction
  intro s kind obj dlen data w h hp hl hgap hk hd hw hm
  obtain ⟨a, hsa, hap, harx, harxLen, hatimer, ham, hawire⟩ :=
    runsTo_reading h hp hl hgap ((legalKind_iff kind).2 hk) hd hm
  have ha := hsa.inv h
  have hab := runsTo_received ha hap (by rw [hatimer]; exact timeoutTicks_pos.ne) (by omega) (by omega) ham
  have hroom : a.rxLen + w.length ≠ 100 := by omega
  have hfresh : a.rxTimer + Config.timeoutTicks = Config.timeoutTicks := by rw [hatimer, Nat.zero_add]
  have hsc := (hsa.trans hab).trans (runsTo_timedOut (rest := [.quiet]) (if_neg hroom) hroom timeoutTicks_pos hfresh rfl)
  have hc := hsc.inv h
  obtain ⟨t, hct, hphase, hdone, hlink, hmoments, hwire, hresponse, houtcome⟩ := step_ends hc rfl rfl
  have hst := hsc.trans (.of_step hct)
  rw [bytesOf_cellsFrom, harx] at hresponse houtcome
  refine ⟨t, ?run, hst.inv h, hphase, hdone, hlink, hmoments, hwire.trans hawire, hresponse, houtcome⟩
  case run =>
    rw [show s.moments.length = 5 + dlen.toNat + 1 + 1 + w.length + Config.timeoutTicks + 1 by
      rw [hm]; simp only [List.length_cons, List.length_append, List.length_replicate, List.length_map, List.length_nil]
      omega]
    exact hst

end Sys2Proof.Machine
end
